-- ==== Sys2Proof/Word.lean ====
section
/-! DEFINITION. The bit-vector types of the block (00_scope.md R11: every quantity is unsigned, bit 0 is the
least significant bit). -/

namespace Sys2Proof

/-- One byte of the frame or of the token buffer. -/
abbrev Byte := BitVec 8

/-- One register word, which is also one word of bus data (20_memory.md R43, R47). -/
abbrev Word := BitVec 32

/-- A base64 character index, 0 to 63 (30_encoding.md R67). -/
abbrev Sextet := BitVec 6

end Sys2Proof
end

