-- ==== Sys2Proof/Config.lean ====
section
/-! DEFINITION. The implementation parameters (00_scope.md R9, R10), the configuration of one block, and the two
free values, both the host's. -/

namespace Sys2Proof

namespace Config

/-- N_WIDE (R9): the number of 24-bit fields. -/
abbrev nWide : Nat := 5

/-- MAX_WIDE (R9): the largest encodable wide tick count, 2^24 − 1. -/
abbrev maxWide : Nat := 16777215

/-- N_NARROW (R9): the number of 16-bit fields. -/
abbrev nNarrow : Nat := 6

/-- MAX_NARROW (R9): the largest encodable narrow tick count, 2^16 − 1. -/
abbrev maxNarrow : Nat := 65535

/-- The number of FIELD registers (R22). -/
abbrev nFields : Nat := 11

/-- FRAME_BYTES (R9). -/
abbrev frameBytes : Nat := 28

/-- P_TOKEN_CAP (R10): the capacity in bytes of the TOKEN buffer. -/
abbrev tokenCap : Nat := 64

/-- The length in characters of every token the block produces (30_encoding.md R69). -/
abbrev tokenChars : Nat := 38

/-- The size in bytes of the register window (20_memory.md R40). -/
abbrev windowBytes : Nat := 0x100

/-- TICKS_PER_INCH (R9): the scale of a tick count, used by the host only. -/
abbrev ticksPerInch : Nat := 10000

/-- P_ROUND_TIES (R10, R96; OPEN): whether the host rounds a product of exactly n + 1/2 ticks up to n + 1.
A FREE VALUE of the host (log entry 7): nothing constrains it. -/
opaque roundTieUp : Int → Bool

/-- The low seven bits of the byte the host writes for a non-ASCII character, by its code point (R94).
A FREE VALUE of the host (log entry 8). -/
opaque nonAsciiLow : Nat → BitVec 7

end Config

/-- The configuration of one block (10_state.md section 9, 70_reset_and_hazards.md R170): fixed for a machine, not
changed by reset. The spec's parameters are arguments of the model (R10), so they are plain data (log entry 1). -/
structure Configuration where
  /-- P_STRICT_PAD_BITS (R10): true when B64DEC rejects non-zero pad bits. -/
  strictPadBits : Bool
  /-- P_BASE divided by 0x100: R40 makes P_BASE a multiple of 0x100. -/
  basePage : Nat
  deriving DecidableEq, Repr

/-- P_BASE: the bus address of offset 0x000 (R40). -/
def Configuration.base (c : Configuration) : Nat := Config.windowBytes * c.basePage

/-- The configuration of `State.reset`: P_STRICT_PAD_BITS at the default R10 gives it; P_BASE is OPEN in the spec and
0 here (DESIGN CHOICE, unsafe, log entry 2). -/
def Configuration.default : Configuration := ⟨false, 0⟩

/-- The source's names of the eleven fields, in the source's order (10_state.md R22). -/
inductive FieldName where
  | height | width | matWidth | frameWidth | frameDepth
  | glazingThickness | matboardThickness | artworkThickness | backingThickness | rabbetDepth | bladeWidth
  deriving DecidableEq, Repr

/-- The number i of FIELD[i] for a field name (10_state.md R22). -/
def FieldName.index : FieldName → Fin 11
  | .height => 0
  | .width => 1
  | .matWidth => 2
  | .frameWidth => 3
  | .frameDepth => 4
  | .glazingThickness => 5
  | .matboardThickness => 6
  | .artworkThickness => 7
  | .backingThickness => 8
  | .rabbetDepth => 9
  | .bladeWidth => 10

end Sys2Proof
end

