-- ==== Sys2Proof/Syntax.lean ====
section
/-! DEFINITION. The syntax of the block's six commands (30_encoding.md R61) and of what the host does at the block's
boundary (R72; 40_host_bus.md R80, R81, R97; 70_reset_and_hazards.md R170). -/

namespace Sys2Proof

/-- The six commands of RFCODEC command set version 1, one for each row of the opcode table. No command has an
operand (30_encoding.md R62). -/
inductive Instr where
  /-- PACK (41_encoder.md R100). -/
  | pack
  /-- UNPACK (42_decoder.md R125). -/
  | unpack
  /-- B64ENC (41_encoder.md R103). -/
  | b64enc
  /-- B64DEC (42_decoder.md R122). -/
  | b64dec
  /-- ENCODE (41_encoder.md R106). -/
  | encode
  /-- DECODE (42_decoder.md R128). -/
  | decode
  deriving DecidableEq, Repr

/-- One action of the host. A program is the host's sequence of them (10_state.md R21). -/
inductive HostAction where
  /-- `RD`: a bus read of one word at a bus address (40_host_bus.md R80; 20_memory.md R40). -/
  | busRead (addr : Nat)
  /-- `WR`: a bus write of one word at a bus address (R81). -/
  | busWrite (addr : Nat) (data : Word)
  /-- The host presents tick count `ticks` for FIELD[i] under the host contract (R97); `none` is an input that has no
  tick count, one that is not a finite number (93 U5). -/
  | presentTick (i : Fin 11) (ticks : Option Int)
  /-- The reset input becomes asserted (70_reset_and_hazards.md R170). -/
  | assertReset
  /-- The reset input is released (R170); with the input not asserted this is a reset too (DESIGN CHOICE, log entry 10). -/
  | releaseReset
  deriving DecidableEq, Repr

end Sys2Proof
end

