-- ==== Sys2Proof/WellFormed.lean ====
section
/-! DEFINITION. What is well formed: an instruction (no operand, so nothing to check), a command word, a host action. -/

namespace Sys2Proof

/-- Every command is well formed: it has no immediate, register specifier or other operand (30_encoding.md R62). -/
def Instr.wellFormed : Instr → Bool
  | .pack => true
  | .unpack => true
  | .b64enc => true
  | .b64dec => true
  | .encode => true
  | .decode => true

/-- A CMD word that encodes a command: OP is 1 to 6 and RSVD is 0 (30_encoding.md R61, R63). -/
def commandWordWellFormed (w : Word) : Bool :=
  w.extractLsb' 4 28 == 0#28 && decide (1 ≤ (w.extractLsb' 0 4).toNat ∧ (w.extractLsb' 0 4).toNat ≤ 6)

/-- A host action the spec does not forbid in itself: a presented tick count exists and is not negative
(40_host_bus.md R97, 93 U5). -/
def HostAction.wellFormed : HostAction → Bool
  | .busRead _ => true
  | .busWrite _ _ => true
  | .presentTick _ none => false
  | .presentTick _ (some t) => decide (0 ≤ t)
  | .assertReset => true
  | .releaseReset => true

end Sys2Proof
end

