-- ==== Sys2Proof/Decode.lean ====
section
/-! DEFINITION. The command word's decoder and encoder (30_encoding.md R60 to R64). -/

namespace Sys2Proof

/-- Why a CMD word encodes no command (30_encoding.md R63). -/
inductive DecodeError where
  /-- RSVD, bits 31:4, is not 0, whatever OP is. -/
  | reservedBits
  /-- OP, bits 3:0, is 0x0 or one of 0x7 to 0xF. -/
  | reservedOp
  deriving DecidableEq, Repr

/-- OP: bits 3:0 of a command word (30_encoding.md R60). -/
def opField (w : Word) : BitVec 4 := w.extractLsb' 0 4

/-- RSVD: bits 31:4 of a command word (30_encoding.md R60). -/
def rsvdField (w : Word) : BitVec 28 := w.extractLsb' 4 28

/-- The opcode map (30_encoding.md R61). -/
def decodeOp (op : BitVec 4) : Option Instr :=
  if op = 0x1#4 then some .pack
  else if op = 0x2#4 then some .unpack
  else if op = 0x3#4 then some .b64enc
  else if op = 0x4#4 then some .b64dec
  else if op = 0x5#4 then some .encode
  else if op = 0x6#4 then some .decode
  else none

/-- The command a CMD word encodes, or why it encodes none (30_encoding.md R61, R63; 40_host_bus.md R86). -/
def decode (w : Word) : Except DecodeError Instr :=
  if rsvdField w ≠ 0#28 then .error .reservedBits
  else
    match decodeOp (opField w) with
    | some i => .ok i
    | none => .error .reservedOp

/-- The OP of a command (30_encoding.md R61). -/
def encodeOp : Instr → BitVec 4
  | .pack => 0x1#4
  | .unpack => 0x2#4
  | .b64enc => 0x3#4
  | .b64dec => 0x4#4
  | .encode => 0x5#4
  | .decode => 0x6#4

/-- The command word of a command: RSVD = 0 above OP (30_encoding.md R60, R61). -/
def encode (i : Instr) : Word := 0#28 ++ encodeOp i

/-- The decoder on a row's bits as the opcode table numbers them: a command is one 32-bit word, so the bits above 31
must be 0. -/
def decodeTableWord (nbits w : Nat) : Option Instr :=
  let v := w % 2 ^ nbits
  if v < 2 ^ 32 then (decode (BitVec.ofNat 32 v)).toOption else none

end Sys2Proof
end

