-- ==== Sys2Proof/Machine/State.lean ====
section
/-! DEFINITION. The machine's state as plain data (10_state.md), its reasons to stop, and the state after reset. -/

namespace Sys2Proof.Machine

/-- The block has no fault: every error is a STATUS value or a bus response, and an ordinary step
(60_exceptions.md R140, R146, R150). Nothing raises one. Safe: the spec stops the machine nowhere. -/
inductive Fault where
  deriving DecidableEq, Repr

/-- The host actions the spec forbids, which a model refuses (60_exceptions.md R150). -/
inductive Refusal where
  /-- An instruction that has no meaning yet: none is left. Safe. -/
  | notModelled (mnemonic : String)
  /-- The host accesses the window while reset is asserted (70_reset_and_hazards.md R171: the spec defines no
  response and a model refuses it). Raised by the step, never by a command. Safe. -/
  | accessDuringReset
  /-- The host presents a negative tick count (40_host_bus.md R97). Raised by the step. Safe. -/
  | negativeTickCount
  /-- The host presents an input that is not a finite number, so has no tick count (93 U5). Raised by the step. Safe. -/
  | noTickCount
  deriving DecidableEq, Repr

/-- STATUS, the fields that are not reserved (10_state.md R27). -/
structure Status where
  /-- ERR, bits 2:0 (R28). -/
  err : BitVec 3
  /-- FMT_CAUSE, bits 7:4 (R29). -/
  fmtCause : BitVec 4
  /-- RANGE_MASK, bits 26:16 (R30). -/
  rangeMask : BitVec 11
  deriving DecidableEq, Repr

/-- The response of a bus transaction (40_host_bus.md R80, R81). -/
inductive Resp where
  | ok
  | busErr
  deriving DecidableEq, Repr

/-- What the host sees of one bus transaction. -/
inductive BusResult where
  /-- A read: its response and its data word (R80). -/
  | read (resp : Resp) (data : Word)
  /-- A write: its response (R81). -/
  | write (resp : Resp)
  /-- The address is outside the window, and the block does not respond (20_memory.md R40). -/
  | silent
  deriving DecidableEq, Repr

/-- The whole state. The registers are the record of 10_state.md section 9; `config` is the block's configuration, which
no step changes; `resetAsserted` is the block's reset input; `pending` and `result` are the model's own, the host's side
of the bus (log entries 3 and 4). CMD is no storage (R26). -/
structure State where
  /-- FIELD[0..10] (R22). -/
  field : Vector Word 11
  /-- FLAGS[1:0]: INCLUDE_MAT is bit 0, UNIT_MM is bit 1 (R24). -/
  flags : BitVec 2
  /-- FRAME[0..27] (R31). -/
  frame : Vector Byte 28
  /-- TOKEN[0..63] (R32). -/
  token : Vector Byte 64
  /-- TOKEN_LEN[15:0] (R33). -/
  tokenLen : BitVec 16
  /-- STATUS (R27). -/
  status : Status
  /-- The configuration (R10, R170). -/
  config : Configuration
  /-- The reset input is asserted (70_reset_and_hazards.md R170). -/
  resetAsserted : Bool
  /-- The host's actions still to come, oldest first (R21, 20_memory.md R52). -/
  pending : List HostAction
  /-- The outcome of the last bus transaction, if there was one. -/
  result : Option BusResult
  deriving DecidableEq, Repr

/-- The machine right after reset, for a configuration: every register is zero (10_state.md R36, R170), the reset
input is released and the host has done nothing yet. -/
def State.resetFor (c : Configuration) : State where
  field := Vector.replicate 11 0#32
  flags := 0#2
  frame := Vector.replicate 28 0#8
  token := Vector.replicate 64 0#8
  tokenLen := 0#16
  status := ⟨0#3, 0#4, 0#11⟩
  config := c
  resetAsserted := false
  pending := []
  result := none

/-- The machine right after reset (10_state.md R36), with the default configuration. -/
def State.reset : State := State.resetFor Configuration.default

/-- INCLUDE_MAT: FLAGS bit 0 (10_state.md R24). -/
def State.includeMat (s : State) : Bool := s.flags.getLsbD 0

/-- UNIT_MM: FLAGS bit 1 (10_state.md R24). -/
def State.unitMm (s : State) : Bool := s.flags.getLsbD 1

/-- The FIELD register of a named field (10_state.md R22). -/
def State.tick (s : State) (n : FieldName) : Word := s.field[n.index]

end Sys2Proof.Machine
end

