-- ==== Sys2Proof/Machine/Tabulate.lean ====
section
/-! DEFINITION. A buffer written out from its elements. -/

namespace Sys2Proof.Machine

/-- The elements `f 0, f 1, ..., f (n − 1)`. -/
def elements {α : Type} : (n : Nat) → (Fin n → α) → List α
  | 0, _ => []
  | n + 1, f => f 0 :: elements n (fun k => f k.succ)

theorem elements_eq_ofFn {α : Type} (n : Nat) (f : Fin n → α) : elements n f = List.ofFn f := by
  induction n with
  | zero => simp [elements]
  | succ n ih => rw [elements, ih, List.ofFn_succ]

/-- The buffer whose element k is `f k`. -/
def tabulate {α : Type} {n : Nat} (f : Fin n → α) : Vector α n :=
  ⟨⟨elements n f⟩, by simp [elements_eq_ofFn]⟩

@[simp] theorem getElem_tabulate {α : Type} {n : Nat} (f : Fin n → α) (k : Nat) (h : k < n) :
    (tabulate f)[k] = f ⟨k, h⟩ := by
  simp [tabulate, elements_eq_ofFn]

end Sys2Proof.Machine
end

