-- ==== Sys2Proof/Machine/Flags.lean ====
section
/-! DEFINITION. STATUS: its codes (10_state.md R28, R29), its values after each outcome (60_exceptions.md R140 to R143)
and its word (R27). The block has no condition codes (R25). -/

namespace Sys2Proof.Machine

/-- The causes of a FormatError, with NONE for a valid token (10_state.md R29). -/
inductive FmtCause where
  | none | length | badDataChar | badPadChar | padBits
  deriving DecidableEq, Repr

/-- The value of STATUS.FMT_CAUSE for a cause (10_state.md R29). -/
def FmtCause.code : FmtCause → BitVec 4
  | .none => 0#4
  | .length => 1#4
  | .badDataChar => 2#4
  | .badPadChar => 3#4
  | .padBits => 4#4

/-- The errors a CMD write can end in (60_exceptions.md R140). -/
inductive CommandError where
  /-- RangeError(mask) (R141). -/
  | range (mask : BitVec 11)
  /-- FormatError(cause) (R142). -/
  | format (cause : FmtCause)
  /-- IllegalCommand (R143). -/
  | illegal
  deriving DecidableEq, Repr

/-- STATUS after a command that completed without error: ERR = OK (10_state.md R28). -/
def Status.ok : Status := ⟨0#3, 0#4, 0#11⟩

/-- STATUS after an error (60_exceptions.md R141, R142, R143). -/
def CommandError.status : CommandError → Status
  | .range mask => ⟨1#3, 0#4, mask⟩
  | .format cause => ⟨2#3, cause.code, 0#11⟩
  | .illegal => ⟨3#3, 0#4, 0#11⟩

/-- STATUS as the 32-bit register (10_state.md R27): the reserved bits 3, 15:8 and 31:27 read 0. -/
def Status.word (st : Status) : Word :=
  0#5 ++ st.rangeMask ++ 0#8 ++ st.fmtCause ++ 0#1 ++ st.err

end Sys2Proof.Machine
end

