-- ==== Sys2Proof/Machine/Base64.lean ====
section
/-! DEFINITION. The base64 alphabet (30_encoding.md R67, R68), the token of a frame and back (R69, R70), the token check
(42_decoder.md R120) and the source's own decoding algorithm (R121). -/

namespace Sys2Proof.Machine

/-- `=`, the pad character (30_encoding.md R68). -/
def padChar : Byte := 0x3D#8

/-- ENC(v): the ASCII code of the URL-safe character of index v (30_encoding.md R67). -/
def enc (v : Sextet) : Byte :=
  let n := v.toNat
  if n ≤ 25 then BitVec.ofNat 8 (0x41 + n)
  else if n ≤ 51 then BitVec.ofNat 8 (0x61 + (n - 26))
  else if n ≤ 61 then BitVec.ofNat 8 (0x30 + (n - 52))
  else if n = 62 then 0x2D#8
  else 0x5F#8

/-- DEC(b): the index of a token byte, none for INVALID; both spellings of 62 and of 63 decode (30_encoding.md R68). -/
def dec (b : Byte) : Option Sextet :=
  let n := b.toNat
  if 0x41 ≤ n ∧ n ≤ 0x5A then some (BitVec.ofNat 6 (n - 0x41))
  else if 0x61 ≤ n ∧ n ≤ 0x7A then some (BitVec.ofNat 6 (n - 0x61 + 26))
  else if 0x30 ≤ n ∧ n ≤ 0x39 then some (BitVec.ofNat 6 (n - 0x30 + 52))
  else if n = 0x2D ∨ n = 0x2B then some 62#6
  else if n = 0x5F ∨ n = 0x2F then some 63#6
  else none

/-- Three bytes as the 24 bits of one base64 group, the first byte highest (30_encoding.md R69). -/
def group24 (b0 b1 b2 : Byte) : BitVec 24 := b0 ++ b1 ++ b2

/-- Four indices as the 24 bits of one base64 group, the first index highest (30_encoding.md R70). -/
def group24OfSextets (v0 v1 v2 v3 : Sextet) : BitVec 24 := v0 ++ v1 ++ v2 ++ v3

/-- The 38 character indices of a frame: nine full groups, then the last byte in two characters, the second with four
zero pad bits (30_encoding.md R69). -/
def tokIndices (frame : Vector Byte 28) : Vector Sextet 38 :=
  tabulate fun k =>
    if h : k.val < 36 then
      (group24 (frame[3 * (k.val / 4)]'(by omega)) (frame[3 * (k.val / 4) + 1]'(by omega))
        (frame[3 * (k.val / 4) + 2]'(by omega))).extractLsb' (18 - 6 * (k.val % 4)) 6
    else if k.val = 36 then frame[27].extractLsb' 2 6
    else frame[27].extractLsb' 0 2 ++ 0#4

/-- tok(F): the 38 characters of a frame (30_encoding.md R69). -/
def tok (frame : Vector Byte 28) : Vector Byte 38 := tabulate fun k => enc (tokIndices frame)[k]

/-- The TOKEN buffer after a B64ENC of a frame: the token, then zeros (41_encoder.md R103). -/
def tokenBuffer (frame : Vector Byte 28) : Vector Byte 64 :=
  tabulate fun k => if h : k.val < 38 then (tok frame)[k.val] else 0x00#8

/-- V[i] = DEC(TOKEN[i]) for a character that the token check has passed (30_encoding.md R70); the 0 of an INVALID
character is never used. -/
def sextetAt (token : Vector Byte 64) (i : Nat) (h : i < 64) : Sextet := (dec token[i]).getD 0#6

/-- frm(T): the frame of the first 38 token characters; the pad bits of character 37 are not used
(30_encoding.md R70). -/
def frm (token : Vector Byte 64) : Vector Byte 28 :=
  tabulate fun k =>
    if h : k.val < 27 then
      let g := 4 * (k.val / 3)
      (group24OfSextets (sextetAt token g (by omega)) (sextetAt token (g + 1) (by omega))
        (sextetAt token (g + 2) (by omega)) (sextetAt token (g + 3) (by omega))).extractLsb' (16 - 8 * (k.val % 3)) 8
    else sextetAt token 36 (by omega) ++ (sextetAt token 37 (by omega)).extractLsb' 4 2

/-- TokenCheck(): the first cause that applies, in the fixed order of 42_decoder.md R120. -/
def tokenCheck (strict : Bool) (token : Vector Byte 64) (len : BitVec 16) : FmtCause :=
  let L := len.toNat
  if L < 38 ∨ L > 40 then .length
  else if (List.finRange 38).any fun i => (dec token[i.val]).isNone then .badDataChar
  else if (List.finRange 2).any fun j => decide (38 + j.val < L) && token[38 + j.val] != padChar then .badPadChar
  else if strict && (sextetAt token 37 (by omega)).extractLsb' 0 4 != 0#4 then .padBits
  else .none

/-! The source's algorithm, RefDecode (42_decoder.md R121), over a character string. -/

/-- Step 1: reverse the URL-safe substitutions (42_decoder.md R121). -/
def reverseSubstitution (b : Byte) : Byte :=
  if b = 0x2D#8 then 0x2B#8 else if b = 0x5F#8 then 0x2F#8 else b

/-- Step 2: append `=` until the length is a multiple of 4 (42_decoder.md R121). -/
def padToGroups (s : List Byte) : List Byte := s ++ List.replicate ((4 - s.length % 4) % 4) padChar

/-- The index of a character of the standard alphabet (30_encoding.md R67, first step). -/
def standardIndex (b : Byte) : Option Sextet :=
  let n := b.toNat
  if 0x41 ≤ n ∧ n ≤ 0x5A then some (BitVec.ofNat 6 (n - 0x41))
  else if 0x61 ≤ n ∧ n ≤ 0x7A then some (BitVec.ofNat 6 (n - 0x61 + 26))
  else if 0x30 ≤ n ∧ n ≤ 0x39 then some (BitVec.ofNat 6 (n - 0x30 + 52))
  else if n = 0x2B then some 62#6
  else if n = 0x2F then some 63#6
  else none

/-- A full group of four data characters: three bytes (42_decoder.md R121). -/
def decodeFullGroup (a b c d : Byte) : Option (List Byte) := do
  let x := group24OfSextets (← standardIndex a) (← standardIndex b) (← standardIndex c) (← standardIndex d)
  return [x.extractLsb' 16 8, x.extractLsb' 8 8, x.extractLsb' 0 8]

/-- A final group `xxx=`: two bytes; non-zero pad bits are a failure when `strict` (42_decoder.md R121). -/
def decodeGroupPad1 (strict : Bool) (a b c : Byte) : Option (List Byte) := do
  let x : BitVec 18 := (← standardIndex a) ++ (← standardIndex b) ++ (← standardIndex c)
  if strict && x.extractLsb' 0 2 != 0#2 then none
  else return [x.extractLsb' 10 8, x.extractLsb' 2 8]

/-- A final group `xx==`: one byte; non-zero pad bits are a failure when `strict` (42_decoder.md R121). -/
def decodeGroupPad2 (strict : Bool) (a b : Byte) : Option (List Byte) := do
  let x : BitVec 12 := (← standardIndex a) ++ (← standardIndex b)
  if strict && x.extractLsb' 0 4 != 0#4 then none
  else return [x.extractLsb' 4 8]

/-- Step 3: strict base64 decoding of 4-character groups, `=` only as `xx==` or `xxx=` in the final group
(42_decoder.md R121). -/
def base64Decode (strict : Bool) : List Byte → Option (List Byte)
  | [] => some []
  | [a, b, c, d] =>
    if d = padChar then
      if c = padChar then decodeGroupPad2 strict a b else decodeGroupPad1 strict a b c
    else decodeFullGroup a b c d
  | a :: b :: c :: d :: rest => do
    let bytes ← decodeFullGroup a b c d
    let more ← base64Decode strict rest
    return bytes ++ more
  | _ => none

/-- RefDecode(s): the source's decode algorithm, none for FormatError (42_decoder.md R121). -/
def refDecode (strict : Bool) (s : List Byte) : Option (List Byte) := do
  let bytes ← base64Decode strict (padToGroups (s.map reverseSubstitution))
  if bytes.length = 28 then some bytes else none

end Sys2Proof.Machine
end

