-- ==== Sys2Proof/Machine/Operands.lean ====
section
/-! DEFINITION. The commands' implicit operands (30_encoding.md R62): the field limits (10_state.md R22), the frame
layout (30_encoding.md R65, R66), and the registers of the window with their offsets (20_memory.md R41 to R45). -/

namespace Sys2Proof.Machine

/-- MAX_i: the largest encodable tick count of FIELD[i] (10_state.md R22). -/
def maxTicks (i : Fin 11) : Nat := if i.val < Config.nWide then Config.maxWide else Config.maxNarrow

/-- FIELD[i] is above its maximum (41_encoder.md R100). -/
def outOfRange (field : Vector Word 11) (i : Fin 11) : Bool := decide (field[i].toNat > maxTicks i)

/-- The mask of a range check: bit i is 1 when FIELD[i] is out of range (41_encoder.md R100, 10_state.md R30). -/
def rangeMask (field : Vector Word 11) : BitVec 11 :=
  (List.finRange 11).foldl
    (fun mask i => if outOfRange field i then mask ||| (1#11 <<< i.val) else mask) 0#11

/-- Byte n of a word, byte 0 being bits 7:0. -/
def byteLane (v : Word) (n : Nat) : Byte := v.extractLsb' (8 * n) 8

/-- Four bytes as one bus word, the first in bits 31:24 (20_memory.md R44, R45). -/
def beWord (b0 b1 b2 b3 : Byte) : Word := b0 ++ b1 ++ b2 ++ b3

/-- The frame of eleven tick counts and two flags (41_encoder.md R100): five big-endian 24-bit fields in bytes 0 to 14,
six big-endian 16-bit fields in bytes 15 to 26, the flags byte with its reserved bits 0 in byte 27
(30_encoding.md R65, R66). -/
def packFrame (field : Vector Word 11) (flags : BitVec 2) : Vector Byte 28 :=
  tabulate fun k =>
    if h : k.val < 15 then byteLane (field[k.val / 3]'(by omega)) (2 - k.val % 3)
    else if h : k.val < 27 then byteLane (field[5 + (k.val - 15) / 2]'(by omega)) (1 - (k.val - 15) % 2)
    else 0#6 ++ flags

/-- The tick count of field i of a frame, zero-extended to 32 bits (42_decoder.md R125). -/
def unpackTick (frame : Vector Byte 28) (i : Fin 11) : Word :=
  if h : i.val < 5 then
    (frame[3 * i.val] ++ frame[3 * i.val + 1] ++ frame[3 * i.val + 2]).setWidth 32
  else
    (frame[15 + 2 * (i.val - 5)] ++ frame[16 + 2 * (i.val - 5)]).setWidth 32

/-- The eleven tick counts of a frame (42_decoder.md R125). -/
def unpackFields (frame : Vector Byte 28) : Vector Word 11 := tabulate (unpackTick frame)

/-- The two flags of a frame: bits 1:0 of byte 27; bits 7:2 are ignored (42_decoder.md R125, R126). -/
def unpackFlags (frame : Vector Byte 28) : BitVec 2 := frame[27].extractLsb' 0 2

/-- The registers of the window (20_memory.md R41). -/
inductive Reg where
  | cmd
  | status
  | flags
  | field (i : Fin 11)
  | frameWord (k : Fin 7)
  | tokenLen
  | tokenWord (k : Fin 16)
  deriving DecidableEq, Repr

/-- The offset of a register (20_memory.md R41). -/
def Reg.offset : Reg → Nat
  | .cmd => 0x000
  | .status => 0x004
  | .flags => 0x008
  | .field i => 0x010 + 4 * i.val
  | .frameWord k => 0x040 + 4 * k.val
  | .tokenLen => 0x060
  | .tokenWord k => 0x080 + 4 * k.val

/-- The register at an offset; none where the offset is misaligned (20_memory.md R48) or unmapped (R42). -/
def regAt (off : Nat) : Option Reg :=
  if off % 4 ≠ 0 then none
  else if off = 0x000 then some .cmd
  else if off = 0x004 then some .status
  else if off = 0x008 then some .flags
  else if h : 0x010 ≤ off ∧ off ≤ 0x038 then some (.field ⟨(off - 0x010) / 4, by omega⟩)
  else if h : 0x040 ≤ off ∧ off ≤ 0x058 then some (.frameWord ⟨(off - 0x040) / 4, by omega⟩)
  else if off = 0x060 then some .tokenLen
  else if h : 0x080 ≤ off ∧ off ≤ 0x0BC then some (.tokenWord ⟨(off - 0x080) / 4, by omega⟩)
  else none

/-- The offset of a bus address, if it lies in the window (20_memory.md R40). -/
def offsetOf (c : Configuration) (addr : Nat) : Option Nat :=
  if c.base ≤ addr ∧ addr < c.base + Config.windowBytes then some (addr - c.base) else none

end Sys2Proof.Machine
end

