-- ==== Sys2Proof/Machine/Ops.lean ====
section
/-! DEFINITION. The named operations over the registers: updates, the end of a command in success or in error, one
register's read and write, the bus response, reset. -/

namespace Sys2Proof.Machine

/-- FIELD[0..10] replaced. -/
def State.withField (s : State) (v : Vector Word 11) : State := { s with field := v }

/-- FLAGS[1:0] replaced. -/
def State.withFlags (s : State) (v : BitVec 2) : State := { s with flags := v }

/-- FRAME[0..27] replaced. -/
def State.withFrame (s : State) (v : Vector Byte 28) : State := { s with frame := v }

/-- TOKEN[0..63] replaced. -/
def State.withToken (s : State) (v : Vector Byte 64) : State := { s with token := v }

/-- TOKEN_LEN[15:0] replaced. -/
def State.withTokenLen (s : State) (v : BitVec 16) : State := { s with tokenLen := v }

/-- All of STATUS replaced (10_state.md R27: every command overwrites all of it). -/
def State.withStatus (s : State) (v : Status) : State := { s with status := v }

/-- The host's remaining actions replaced. -/
def State.withPending (s : State) (v : List HostAction) : State := { s with pending := v }

/-- A bus transaction answers `r`: nothing in the block records it (40_host_bus.md R87). -/
def State.respond (s : State) (r : BusResult) : State := { s with result := some r }

/-- A command completes without error: STATUS is OK (10_state.md R28). -/
def State.complete (s : State) : State := s.withStatus Status.ok

/-- `raise`: a command ends in an error. This is all the exception entry the block has: STATUS is written and no other
register changes; no trap, no saved state, no handler, and nothing to return from (00_scope.md R13;
60_exceptions.md R141 to R143, R146, R147). -/
def State.raise (s : State) (e : CommandError) : State := s.withStatus e.status

/-- An outcome with its next state passed on through `f`; a stop stays the stop it is. -/
def onNext (o : Host.Outcome State Fault Refusal) (f : State → State) : Host.Outcome State Fault Refusal :=
  match o with
  | .next s => .next (f s)
  | .fault r => .fault r
  | .refused r => .refused r

/-- A FRAME word, big-endian (20_memory.md R44). -/
def frameWord (frame : Vector Byte 28) (k : Fin 7) : Word :=
  beWord frame[4 * k.val] frame[4 * k.val + 1] frame[4 * k.val + 2] frame[4 * k.val + 3]

/-- A TOKEN word, big-endian (20_memory.md R45). -/
def tokenWord (token : Vector Byte 64) (k : Fin 16) : Word :=
  beWord token[4 * k.val] token[4 * k.val + 1] token[4 * k.val + 2] token[4 * k.val + 3]

/-- The frame after a write of FRAME word k (40_host_bus.md R81, R88). -/
def setFrameWord (frame : Vector Byte 28) (k : Fin 7) (v : Word) : Vector Byte 28 :=
  (((frame.set (4 * k.val) (byteLane v 3)).set (4 * k.val + 1) (byteLane v 2)).set (4 * k.val + 2)
    (byteLane v 1)).set (4 * k.val + 3) (byteLane v 0)

/-- The token buffer after a write of TOKEN word k (40_host_bus.md R81, R88). -/
def setTokenWord (token : Vector Byte 64) (k : Fin 16) (v : Word) : Vector Byte 64 :=
  (((token.set (4 * k.val) (byteLane v 3)).set (4 * k.val + 1) (byteLane v 2)).set (4 * k.val + 2)
    (byteLane v 1)).set (4 * k.val + 3) (byteLane v 0)

/-- The value the host reads from a register (40_host_bus.md R80): CMD reads 0, unimplemented bits read 0. -/
def readReg (s : State) : Reg → Word
  | .cmd => 0#32
  | .status => s.status.word
  | .flags => s.flags.setWidth 32
  | .field i => s.field[i]
  | .frameWord k => frameWord s.frame k
  | .tokenLen => s.tokenLen.setWidth 32
  | .tokenWord k => tokenWord s.token k

/-- The store of a host write to a register other than CMD (40_host_bus.md R81, R83 to R85, R88): a write to STATUS is
ignored, unimplemented bits are dropped. CMD is no storage (10_state.md R26): its write runs a command (`busWrite`). -/
def writeReg (s : State) (r : Reg) (v : Word) : State :=
  match r with
  | .cmd => s
  | .status => s
  | .flags => s.withFlags (v.setWidth 2)
  | .field i => s.withField (s.field.set i v)
  | .frameWord k => s.withFrame (setFrameWord s.frame k v)
  | .tokenLen => s.withTokenLen (v.setWidth 16)
  | .tokenWord k => s.withToken (setTokenWord s.token k v)

/-- Every register takes its reset value (10_state.md R36, 70_reset_and_hazards.md R170); the configuration is not
changed, and the model's own fields are not registers. -/
def State.resetRegisters (s : State) : State :=
  { State.resetFor s.config with
    resetAsserted := s.resetAsserted, pending := s.pending, result := s.result }

/-- The reset input driven to a level: the registers have their reset values while it is asserted and when it is
released (70_reset_and_hazards.md R170). DESIGN CHOICE, unsafe, log entry 10: a release while the input is not asserted,
of which the spec says nothing, resets the registers too. -/
def State.driveReset (s : State) (asserted : Bool) : State :=
  { s.resetRegisters with resetAsserted := asserted }

end Sys2Proof.Machine
end

