-- ==== Sys2Proof/Machine/Decoder.lean ====
section
/-! DEFINITION. The meanings of the decoder commands (42_decoder.md): B64DEC, UNPACK, DECODE. -/

namespace Sys2Proof.Machine

/-- TokenCheck() on the registers and P_STRICT_PAD_BITS (42_decoder.md R120). -/
def State.tokenCause (s : State) : FmtCause := tokenCheck s.config.strictPadBits s.token s.tokenLen

/-- The FRAME writes of B64DEC (42_decoder.md R122). -/
def State.writeDecodedFrame (s : State) : State := s.withFrame (frm s.token)

/-- The FIELD and FLAGS writes of UNPACK, from FRAME as it stands (42_decoder.md R125). -/
def State.writeUnpacked (s : State) : State :=
  (s.withField (unpackFields s.frame)).withFlags (unpackFlags s.frame)

/-- B64DEC (42_decoder.md R122): a FormatError with the token's cause, else the frame it encodes. -/
def execB64dec (s : State) : Host.Outcome State Fault Refusal :=
  let c := s.tokenCause
  if c ≠ .none then .next (s.raise (.format c))
  else .next s.writeDecodedFrame.complete

/-- UNPACK (42_decoder.md R125): the tick counts and flags of FRAME; it has no error (R126). -/
def execUnpack (s : State) : Host.Outcome State Fault Refusal :=
  .next s.writeUnpacked.complete

/-- DECODE (42_decoder.md R128): the token check, then the frame, then its tick counts and flags; nothing but STATUS on a
FormatError. -/
def execDecode (s : State) : Host.Outcome State Fault Refusal :=
  let c := s.tokenCause
  if c ≠ .none then .next (s.raise (.format c))
  else .next s.writeDecodedFrame.writeUnpacked.complete

end Sys2Proof.Machine
end

