-- ==== Sys2Proof/Machine/Encoder.lean ====
section
/-! DEFINITION. The meanings of the encoder commands (41_encoder.md): PACK, B64ENC, ENCODE. -/

namespace Sys2Proof.Machine

/-- The FRAME writes of PACK (41_encoder.md R100). -/
def State.writePackedFrame (s : State) : State := s.withFrame (packFrame s.field s.flags)

/-- The TOKEN and TOKEN_LEN writes of B64ENC, from FRAME as it stands (41_encoder.md R103). -/
def State.writeToken (s : State) : State := (s.withToken (tokenBuffer s.frame)).withTokenLen 38#16

/-- PACK (41_encoder.md R100): a RangeError when any tick count is above its maximum, else the frame. -/
def execPack (s : State) : Host.Outcome State Fault Refusal :=
  let mask := rangeMask s.field
  if mask ≠ 0#11 then .next (s.raise (.range mask))
  else .next s.writePackedFrame.complete

/-- B64ENC (41_encoder.md R103): the token of FRAME; it has no error. -/
def execB64enc (s : State) : Host.Outcome State Fault Refusal :=
  .next s.writeToken.complete

/-- ENCODE (41_encoder.md R106): the range check of PACK, then its frame, then the token of the frame just written
(70_reset_and_hazards.md R173); nothing but STATUS on a RangeError. -/
def execEncode (s : State) : Host.Outcome State Fault Refusal :=
  let mask := rangeMask s.field
  if mask ≠ 0#11 then .next (s.raise (.range mask))
  else .next s.writePackedFrame.writeToken.complete

end Sys2Proof.Machine
end

