-- ==== Sys2Proof/Machine/Bus.lean ====
section
/-! DEFINITION. The host bus (40_host_bus.md R80 to R88): the command write, the two transactions, and one action of the
host. -/

namespace Sys2Proof.Machine

/-- Execute(v): the command a CMD word encodes, or IllegalCommand (40_host_bus.md R86, 60_exceptions.md R143). -/
def execute (v : Word) (s : State) : Host.Outcome State Fault Refusal :=
  match Sys2Proof.decode v with
  | .ok i => exec i s
  | .error _ => .next (s.raise .illegal)

/-- BusRead(off): the response and the data; it changes no state (40_host_bus.md R80, R87). -/
def busRead (s : State) (off : Nat) : Resp × Word :=
  match regAt off with
  | none => (.busErr, 0#32)
  | some r => (.ok, readReg s r)

/-- BusWrite(off, v): a command when `off` is CMD, a store otherwise; BUSERR changes no register
(40_host_bus.md R81, R86, R87). -/
def busWrite (s : State) (off : Nat) (v : Word) : Host.Outcome State Fault Refusal :=
  match regAt off with
  | none => .next (s.respond (.write .busErr))
  | some .cmd => onNext (execute v s) (fun t => t.respond (.write .ok))
  | some r => .next ((writeReg s r v).respond (.write .ok))

/-- The FIELD value the host writes for a tick count: min(tick, 2^32 − 1) (40_host_bus.md R97). -/
def saturateTick (t : Int) : Word := BitVec.ofNat 32 (min t.toNat (2 ^ 32 - 1))

/-- A bus write at an offset of the window, refused while reset is asserted (70_reset_and_hazards.md R171). -/
def windowWrite (s : State) (off : Nat) (v : Word) : Host.Outcome State Fault Refusal :=
  if s.resetAsserted then .refused .accessDuringReset else busWrite s off v

/-- One action of the host (10_state.md R20). An address outside the window gets no answer (20_memory.md R40); an access
while reset is asserted, and a tick count the host must not present, are refused (60_exceptions.md R150). DESIGN CHOICE,
unsafe, log entry 10: `releaseReset` while reset is not asserted, of which the spec says nothing, resets the registers. -/
def runAction (s : State) : HostAction → Host.Outcome State Fault Refusal
  | .busRead addr =>
    match offsetOf s.config addr with
    | none => .next (s.respond .silent)
    | some off =>
      if s.resetAsserted then .refused .accessDuringReset
      else .next (s.respond (.read (busRead s off).1 (busRead s off).2))
  | .busWrite addr v =>
    match offsetOf s.config addr with
    | none => .next (s.respond .silent)
    | some off => windowWrite s off v
  | .presentTick _ none => .refused .noTickCount
  | .presentTick i (some t) =>
    if t < 0 then .refused .negativeTickCount
    else windowWrite s (Reg.field i).offset (saturateTick t)
  | .assertReset => .next (s.driveReset true)
  | .releaseReset => .next (s.driveReset false)

/-- The block takes no step of its own (10_state.md R20): with no host action left nothing changes; else the oldest
action takes full effect (20_memory.md R52). -/
def runPending (s : State) : Host.Outcome State Fault Refusal :=
  match s.pending with
  | [] => .next s
  | a :: rest => runAction (s.withPending rest) a

end Sys2Proof.Machine
end

