-- ==== Sys2Proof/Machine/HostSide.lean ====
section
/-! DEFINITION. The host's side: the pseudo-instructions (30_encoding.md R73) and the host contract's arithmetic
(40_host_bus.md R94, R96, R98). These bind the host, not the block (00_scope.md R5): no step uses them. -/

namespace Sys2Proof.Machine

/-- `WR off, v` on a block whose window starts at `base` (30_encoding.md R72). -/
def wr (base off : Nat) (v : Word) : HostAction := .busWrite (base + off) v

/-- `RD off` (30_encoding.md R72). -/
def rd (base off : Nat) : HostAction := .busRead (base + off)

/-- A command's pseudo-instruction: `WR 0x000, OP` (30_encoding.md R73). -/
def pseudoCommand (base : Nat) (i : Instr) : List HostAction := [wr base 0x000 (Sys2Proof.encode i)]

/-- `SETF i, v` (30_encoding.md R73). -/
def pseudoSetF (base : Nat) (i : Fin 11) (v : Word) : List HostAction := [wr base (0x010 + 4 * i.val) v]

/-- `SETFLAGS m, u`: `WR 0x008, 2·u + m` (30_encoding.md R73). -/
def pseudoSetFlags (base : Nat) (m u : Bool) : List HostAction :=
  [wr base 0x008 (BitVec.ofNat 32 (2 * u.toNat + m.toNat))]

/-- `SETFRAME b0 ... b27` (30_encoding.md R73). -/
def pseudoSetFrame (base : Nat) (b : Vector Byte 28) : List HostAction :=
  (List.finRange 7).map fun k => wr base (0x040 + 4 * k.val) (frameWord b k)

/-- The word_k of `SETTOKEN`: characters 4k to 4k+3, 0x00 at or beyond the end (30_encoding.md R73). -/
def tokenWordOf (chars : List Byte) (k : Nat) : Word :=
  beWord (chars.getD (4 * k) 0#8) (chars.getD (4 * k + 1) 0#8) (chars.getD (4 * k + 2) 0#8) (chars.getD (4 * k + 3) 0#8)

/-- `SETTOKEN "s"`: the length, saturated at 65535, then the words of the first 64 characters (30_encoding.md R73). -/
def pseudoSetToken (base : Nat) (chars : List Byte) : List HostAction :=
  wr base 0x060 (BitVec.ofNat 32 (min chars.length 65535)) ::
    (List.range ((min chars.length 64 + 3) / 4)).map fun k => wr base (0x080 + 4 * k) (tokenWordOf chars k)

/-- `GETF i` (30_encoding.md R73). -/
def pseudoGetF (base : Nat) (i : Fin 11) : List HostAction := [rd base (0x010 + 4 * i.val)]

/-- `GETSTATUS` (30_encoding.md R73). -/
def pseudoGetStatus (base : Nat) : List HostAction := [rd base 0x004]

/-- The byte the host writes for a token character: its ASCII code, or some byte ≥ 0x80 (40_host_bus.md R94). -/
def hostTokenByte (c : Char) : Byte :=
  if c.toNat < 0x80 then BitVec.ofNat 8 c.toNat else 1#1 ++ Config.nonAsciiLow c.toNat

/-- The bytes the host writes for a token string (40_host_bus.md R94). The cause each of them leads to is fixed by
42_decoder.md R120 (10_state.md R29; log entry 9). -/
def hostTokenBytes (s : String) : List Byte := s.toList.map hostTokenByte

/-- The host's rounding of num / den ticks to the nearest integer; an exact tie goes as P_ROUND_TIES says
(40_host_bus.md R96). -/
def roundToNearest (num : Int) (den : Nat) : Int :=
  let n := num / den
  let r := num % den
  if 2 * r < den then n
  else if 2 * r > den then n + 1
  else if Config.roundTieUp n then n + 1 else n

/-- `tick = round(value × 10000)` for a value in inches (40_host_bus.md R96). -/
def hostTicks (inches : Rat) : Int := roundToNearest (inches.num * Config.ticksPerInch) inches.den

/-- The decimal value of a field after a successful decode, in inches (40_host_bus.md R98). -/
def hostInches (v : Word) : Rat := (v.toNat : Rat) / Config.ticksPerInch

/-- The millimetres the host displays: inches multiplied by 25.4 (40_host_bus.md R98). -/
def hostMillimetres (v : Word) : Rat := hostInches v * 254 / 10

/-- The host's actions for one dimension in inches, none for an input that is not a finite number: the tick count,
presented under R97 (40_host_bus.md R96, R97; 93 U5). DESIGN CHOICE, unsafe, log entry 15: a negative dimension that rounds
to the tick count 0 is presented as 0, since R97 bars a negative tick count and 0 is none. -/
def pseudoDimension (n : FieldName) (inches : Option Rat) : List HostAction :=
  [.presentTick n.index (inches.map hostTicks)]

end Sys2Proof.Machine
end

