-- ==== Sys2Proof/Machine/Step.lean ====
section
/-! DEFINITION. One step of the machine: the host's oldest pending action (10_state.md R20, R21; 20_memory.md R52). -/

namespace Sys2Proof.Machine

/-- One step: one action of the host at the block's boundary. -/
def step (s : State) : Host.Outcome State Fault Refusal := runPending s

/-- `s` with a write of the command word `w` to CMD as the host's next action, ahead of the rest, and with the reset
input released, which an access needs (70_reset_and_hazards.md R171). The block fetches nothing (10_state.md R21): this
write is how a command comes to run (log entry 3). -/
def State.withFetchWord (s : State) (nbits w : Nat) : State :=
  { s with
    resetAsserted := false
    pending := .busWrite s.config.base (BitVec.ofNat 32 (w % 2 ^ nbits)) :: s.pending }

end Sys2Proof.Machine
end

