-- ==== Sys2Proof/Safety.lean ====
section
/-! DEFINITION. What a legal state and a forbidden host action are, in the terms claims use. -/

namespace Sys2Proof.Machine

/-- STATUS holds only values the block produces (10_state.md R28, R29, R30; 93 U14). -/
structure Status.Legal (st : Status) (strict : Bool) : Prop where
  /-- ERR is 0 to 3 (R28). -/
  err_le : st.err.toNat ≤ 3
  /-- FMT_CAUSE is 0 to 4 (R29). -/
  cause_le : st.fmtCause.toNat ≤ 4
  /-- FMT_CAUSE is non-zero exactly when ERR = 2 (R29). -/
  cause_iff : st.fmtCause ≠ 0#4 ↔ st.err = 2#3
  /-- RANGE_MASK is non-zero exactly when ERR = 1 (R30, 41_encoder.md R100). -/
  mask_iff : st.rangeMask ≠ 0#11 ↔ st.err = 1#3
  /-- PAD_BITS needs P_STRICT_PAD_BITS = 1 (R29). -/
  padBits_strict : st.fmtCause = 4#4 → strict = true

/-- Every register holds its reset value (10_state.md R36). -/
def State.RegistersAtReset (s : State) : Prop :=
  s = { State.resetFor s.config with
    resetAsserted := s.resetAsserted, pending := s.pending, result := s.result }

/-- The invariant of the block: STATUS is legal, and while reset is asserted every register holds its reset value
(70_reset_and_hazards.md R170). -/
structure State.Inv (s : State) : Prop where
  status_legal : s.status.Legal s.config.strictPadBits
  held_in_reset : s.resetAsserted = true → s.RegistersAtReset

/-- The next host action accesses the window (20_memory.md R40): a bus address inside it, or a tick count presented to
a FIELD register. -/
def accessesWindow (c : Configuration) : HostAction → Bool
  | .busRead a => (offsetOf c a).isSome
  | .busWrite a _ => (offsetOf c a).isSome
  | .presentTick _ _ => true
  | .assertReset => false
  | .releaseReset => false

/-- The host actions the spec forbids (60_exceptions.md R150): an access during reset, a tick count that is negative
or does not exist. -/
def Forbidden (s : State) (a : HostAction) : Prop :=
  (s.resetAsserted = true ∧ accessesWindow s.config a = true) ∨ a.wellFormed = false

/-- A step is safe when it has a next state: nothing but a forbidden host action has none. -/
def State.SafeStep (s : State) : Prop := ∃ t, step s = .next t

/-! The spec's relations between registers, written from its pseudocode, apart from the functions of the machine. -/

/-- MAX_i as the table of 10_state.md R22 gives it. -/
def MaxOf (i : Fin 11) : Nat := if i.val < 5 then 16777215 else 65535

/-- No tick count is above its field maximum (41_encoder.md R100). -/
def InRange (field : Vector Word 11) : Prop := ∀ i : Fin 11, field[i].toNat ≤ MaxOf i

/-- `mask` has bit i set exactly when FIELD[i] > MAX_i (41_encoder.md R100, 10_state.md R30). -/
def IsRangeMask (field : Vector Word 11) (mask : BitVec 11) : Prop :=
  ∀ i : Fin 11, mask[i.val] = decide (field[i].toNat > MaxOf i)

/-- `F` is the frame PACK writes: the assignments of 41_encoder.md R100. -/
def IsPackedFrame (field : Vector Word 11) (flags : BitVec 2) (F : Vector Byte 28) : Prop :=
  (∀ (i : Nat) (h : i < 5),
    F[3 * i] = field[i].extractLsb' 16 8 ∧
    F[3 * i + 1] = field[i].extractLsb' 8 8 ∧
    F[3 * i + 2] = field[i].extractLsb' 0 8) ∧
  (∀ (j : Nat) (h : j < 6),
    F[15 + 2 * j] = field[5 + j].extractLsb' 8 8 ∧
    F[16 + 2 * j] = field[5 + j].extractLsb' 0 8) ∧
  F[27] = 0b000000#6 ++ flags

/-- `T` is the TOKEN buffer B64ENC writes for the frame `F`: the assignments of 30_encoding.md R69 and
41_encoder.md R103. -/
def IsTokenOf (F : Vector Byte 28) (T : Vector Byte 64) : Prop :=
  (∀ (g : Nat) (h : g < 9),
    let X : BitVec 24 := F[3 * g] ++ F[3 * g + 1] ++ F[3 * g + 2]
    T[4 * g] = enc (X.extractLsb' 18 6) ∧
    T[4 * g + 1] = enc (X.extractLsb' 12 6) ∧
    T[4 * g + 2] = enc (X.extractLsb' 6 6) ∧
    T[4 * g + 3] = enc (X.extractLsb' 0 6)) ∧
  T[36] = enc (F[27].extractLsb' 2 6) ∧
  T[37] = enc (F[27].extractLsb' 0 2 ++ 0b0000#4) ∧
  ∀ (k : Nat) (h : k < 64), 38 ≤ k → T[k] = 0x00#8

/-- `F` is the frame of the first 38 characters of `T`, all of them valid: the assignments of 30_encoding.md R70. -/
def IsFrameOf (T : Vector Byte 64) (F : Vector Byte 28) : Prop :=
  ∃ V : Vector Sextet 38,
    (∀ (i : Nat) (h : i < 38), dec T[i] = some V[i]) ∧
    (∀ (g : Nat) (h : g < 9),
      let X : BitVec 24 := V[4 * g] ++ V[4 * g + 1] ++ V[4 * g + 2] ++ V[4 * g + 3]
      F[3 * g] = X.extractLsb' 16 8 ∧
      F[3 * g + 1] = X.extractLsb' 8 8 ∧
      F[3 * g + 2] = X.extractLsb' 0 8) ∧
    F[27] = V[36] ++ V[37].extractLsb' 4 2

/-- `field` and `flags` are what UNPACK writes for the frame `F`: the assignments of 42_decoder.md R125. -/
def IsUnpacked (F : Vector Byte 28) (field : Vector Word 11) (flags : BitVec 2) : Prop :=
  (∀ (i : Nat) (h : i < 5),
    field[i] = (F[3 * i] ++ F[3 * i + 1] ++ F[3 * i + 2] : BitVec 24).setWidth 32) ∧
  (∀ (j : Nat) (h : j < 6),
    field[5 + j] = (F[15 + 2 * j] ++ F[16 + 2 * j] : BitVec 16).setWidth 32) ∧
  flags = F[27].extractLsb' 0 2

/-- TOKEN_LEN is 38, 39 or 40 (42_decoder.md R120, first check). -/
def LengthOk (s : State) : Prop := 38 ≤ s.tokenLen.toNat ∧ s.tokenLen.toNat ≤ 40

/-- The first 38 token bytes are base64 characters (42_decoder.md R120, second check). -/
def DataOk (s : State) : Prop := ∀ (i : Nat) (h : i < 38), dec s.token[i] ≠ none

/-- Every token byte from index 38 up to TOKEN_LEN is `=` (42_decoder.md R120, third check). -/
def PadOk (s : State) : Prop := ∀ (i : Nat) (h : i < 64), 38 ≤ i → i < s.tokenLen.toNat → s.token[i] = 0x3D#8

/-- The pad bits of character 37 are zero where P_STRICT_PAD_BITS asks for it (42_decoder.md R120, fourth check). -/
def PadBitsOk (s : State) : Prop :=
  s.config.strictPadBits = true → ∀ v, dec s.token[37] = some v → v.extractLsb' 0 4 = 0b0000#4

/-- The cause that 42_decoder.md R120 gives: the first of the four checks that fails, or none. -/
def CauseApplies (s : State) : FmtCause → Prop
  | .length => ¬ LengthOk s
  | .badDataChar => LengthOk s ∧ ¬ DataOk s
  | .badPadChar => LengthOk s ∧ DataOk s ∧ ¬ PadOk s
  | .padBits => LengthOk s ∧ DataOk s ∧ PadOk s ∧ ¬ PadBitsOk s
  | .none => LengthOk s ∧ DataOk s ∧ PadOk s ∧ PadBitsOk s

/-- The URL-safe spelling of a token byte: `+` is spelt `-` and `/` is spelt `_` (42_decoder.md R124). -/
def urlSafeSpelling (b : Byte) : Byte :=
  if b = 0x2B#8 then 0x2D#8 else if b = 0x2F#8 then 0x5F#8 else b

/-- TOKEN and TOKEN_LEN hold one of the accepted spellings of the token of `F` (42_decoder.md R124): unpadded or padded
with `=`, either spelling of indices 62 and 63, and at character 37 any pad bits unless P_STRICT_PAD_BITS = 1. -/
def Spells (s : State) (F : Vector Byte 28) : Prop :=
  LengthOk s ∧ PadOk s ∧
  (∃ T : Vector Byte 64, IsTokenOf F T ∧ ∀ (i : Nat) (h : i < 37), urlSafeSpelling s.token[i] = T[i]) ∧
  ∃ p : BitVec 4, urlSafeSpelling s.token[37] = enc (F[27].extractLsb' 0 2 ++ p) ∧
    (s.config.strictPadBits = true → p = 0b0000#4)

/-- Two states agree on what a command reads: the `reads` column of 20_memory.md R51, and P_STRICT_PAD_BITS for the
commands that check a token (42_decoder.md R122, R128). -/
def ReadsAgree (s t : State) : Instr → Prop
  | .pack => s.field = t.field ∧ s.flags = t.flags
  | .b64enc => s.frame = t.frame
  | .encode => s.field = t.field ∧ s.flags = t.flags
  | .b64dec => s.token = t.token ∧ s.tokenLen = t.tokenLen ∧ s.config.strictPadBits = t.config.strictPadBits
  | .unpack => s.frame = t.frame
  | .decode => s.token = t.token ∧ s.tokenLen = t.tokenLen ∧ s.config.strictPadBits = t.config.strictPadBits

/-- Two states agree on what a command writes besides STATUS: the `writes` column of 20_memory.md R51. -/
def WritesAgree (s t : State) : Instr → Prop
  | .pack => s.frame = t.frame
  | .b64enc => s.token = t.token ∧ s.tokenLen = t.tokenLen
  | .encode => s.frame = t.frame ∧ s.token = t.token ∧ s.tokenLen = t.tokenLen
  | .b64dec => s.frame = t.frame
  | .unpack => s.field = t.field ∧ s.flags = t.flags
  | .decode => s.frame = t.frame ∧ s.field = t.field ∧ s.flags = t.flags

/-- The offsets whose registers a command writes: the `writes` column of 20_memory.md R51, by the map of R41. -/
def writesOffset (i : Instr) (off : Nat) : Prop :=
  off = 0x004 ∨
  match i with
  | .pack => 0x040 ≤ off ∧ off ≤ 0x058
  | .b64enc => off = 0x060 ∨ (0x080 ≤ off ∧ off ≤ 0x0BC)
  | .encode => (0x040 ≤ off ∧ off ≤ 0x058) ∨ off = 0x060 ∨ (0x080 ≤ off ∧ off ≤ 0x0BC)
  | .b64dec => 0x040 ≤ off ∧ off ≤ 0x058
  | .unpack => off = 0x008 ∨ (0x010 ≤ off ∧ off ≤ 0x038)
  | .decode => (0x040 ≤ off ∧ off ≤ 0x058) ∨ off = 0x008 ∨ (0x010 ≤ off ∧ off ≤ 0x038)

/-- A word-aligned offset that holds no register: the list of 20_memory.md R42. -/
def Unmapped (off : Nat) : Prop :=
  off = 0x00C ∨ off = 0x03C ∨ off = 0x05C ∨ (0x064 ≤ off ∧ off ≤ 0x07C) ∨ (0x0C0 ≤ off ∧ off ≤ 0x0FC)

/-- An illegal CMD word: OP is 0x0 or one of 0x7 to 0xF, or RSVD is not 0 (30_encoding.md R63). -/
def IllegalWord (w : Word) : Prop :=
  (w.extractLsb' 0 4 = 0x0#4 ∨ 7 ≤ (w.extractLsb' 0 4).toNat) ∨ w.extractLsb' 4 28 ≠ 0#28

end Sys2Proof.Machine
end

