-- ==== Sys2Proof/Certificates/Slice0/Obligations.lean ====
section
/-! DEFINITION. The statements for the provers. The relations they use (InRange, IsPackedFrame, CauseApplies and so on)
stand in Sys2Proof/Safety.lean, written from the spec's pseudocode. -/

open Sys2Proof Sys2Proof.Machine

/-! ## Reset -/

/-- 10_state.md R36 and 70_reset_and_hazards.md R170: the value of every register after reset, for the state right after
reset and for a reset event from any state, which keeps the configuration. The model's choices, no rule of the spec: the
host's remaining actions (log entry 3) and the last answer (log entry 4) are kept; the input is a level driven by two
actions, and a release while it is not asserted resets the registers too (log entry 10). -/
def Obligations.ResetGivesEveryRegisterItsValue : Prop :=
  (∀ c : Configuration, ∀ s : State, s = State.resetFor c →
    (∀ (i : Nat) (h : i < 11), s.field[i] = 0#32) ∧ s.flags = 0#2 ∧ (∀ (k : Nat) (h : k < 28), s.frame[k] = 0#8) ∧
    (∀ (k : Nat) (h : k < 64), s.token[k] = 0#8) ∧ s.tokenLen = 0#16 ∧ s.status.word = 0#32 ∧
    busRead s 0x000 = (.ok, 0#32)) ∧
  ∀ (s : State) (asserted : Bool) (rest : List HostAction),
    s.pending = (if asserted then HostAction.assertReset else HostAction.releaseReset) :: rest →
    ∃ t, step s = .next t ∧
      (∀ (i : Nat) (h : i < 11), t.field[i] = 0#32) ∧ t.flags = 0#2 ∧ (∀ (k : Nat) (h : k < 28), t.frame[k] = 0#8) ∧
      (∀ (k : Nat) (h : k < 64), t.token[k] = 0#8) ∧ t.tokenLen = 0#16 ∧ t.status.word = 0#32 ∧
      busRead t 0x000 = (.ok, 0#32) ∧
      t.config = s.config ∧ t.resetAsserted = asserted ∧ t.pending = rest ∧ t.result = s.result

/-- 70_reset_and_hazards.md R172: commands straight after reset work on the zero reset values. -/
def Obligations.CommandsRightAfterReset : Prop :=
  ∀ c : Configuration, ∃ t u,
    exec .pack (State.resetFor c) = .next t ∧ t = State.resetFor c ∧
    exec .decode (State.resetFor c) = .next u ∧
    u = { State.resetFor c with status := ⟨2#3, 1#4, 0#11⟩ } ∧ u.status.word = 0x00000012#32

/-- The invariant holds right after reset, for every configuration. -/
def Obligations.InvariantHoldsAfterReset : Prop :=
  (∀ c : Configuration, (State.resetFor c).Inv) ∧ State.reset = State.resetFor Configuration.default

/-- Every step from any state keeps the invariant: STATUS takes only the values of 10_state.md R28 to R30, and while
reset is asserted every register holds its reset value (70_reset_and_hazards.md R170). -/
def Obligations.StepKeepsInvariant : Prop :=
  ∀ s t : State, s.Inv → step s = .next t → t.Inv

/-- No step changes the configuration, reset included (70_reset_and_hazards.md R170). -/
def Obligations.StepKeepsConfiguration : Prop :=
  ∀ s t : State, step s = .next t → t.config = s.config

/-! ## Command words -/

/-- 30_encoding.md R61, R63: decode and encode agree over all 2^32 CMD words, and the words that decode to nothing are
exactly the illegal ones. -/
def Obligations.CommandWordsDecodeExactly : Prop :=
  (∀ (w : Word) (i : Instr), Sys2Proof.decode w = .ok i ↔ w = Sys2Proof.encode i) ∧
  ∀ w : Word, (∃ e, Sys2Proof.decode w = .error e) ↔ IllegalWord w

/-- The CMD words of 30_encoding.md R61, and a word of each illegal kind of R63. -/
def Obligations.SpecCommandWordsDecode : Prop :=
  Sys2Proof.decode 0x00000001#32 = .ok .pack ∧ Sys2Proof.decode 0x00000002#32 = .ok .unpack ∧
  Sys2Proof.decode 0x00000003#32 = .ok .b64enc ∧ Sys2Proof.decode 0x00000004#32 = .ok .b64dec ∧
  Sys2Proof.decode 0x00000005#32 = .ok .encode ∧ Sys2Proof.decode 0x00000006#32 = .ok .decode ∧
  Sys2Proof.decode 0x00000000#32 = .error .reservedOp ∧ Sys2Proof.decode 0x00000007#32 = .error .reservedOp ∧
  Sys2Proof.decode 0x0000000F#32 = .error .reservedOp ∧ Sys2Proof.decode 0x00000011#32 = .error .reservedBits ∧
  Sys2Proof.decode 0x80000005#32 = .error .reservedBits

/-- A step runs the decoded instruction (40_host_bus.md R86): a write of its word to CMD runs it on the state without
that write, and the bus response is OK. -/
def Obligations.CmdWriteRunsTheDecodedCommand : Prop :=
  ∀ (s : State) (rest : List HostAction) (w : Word) (i : Instr),
    s.resetAsserted = false → s.pending = .busWrite s.config.base w :: rest → Sys2Proof.decode w = .ok i →
    i.wellFormed = true →
    ∃ t, exec i { s with pending := rest } = .next t ∧ step s = .next { t with result := some (.write .ok) }

/-- 60_exceptions.md R143, for every illegal word of 30_encoding.md R63: STATUS is 3 and no other register changes. -/
def Obligations.IllegalWordWritesOnlyStatus : Prop :=
  ∀ (s : State) (rest : List HostAction) (w : Word),
    s.resetAsserted = false → s.pending = .busWrite s.config.base w :: rest → IllegalWord w →
    step s = .next { s with pending := rest, status := ⟨3#3, 0#4, 0#11⟩, result := some (.write .ok) }

/-! ## The six commands -/

/-- 41_encoder.md R100: PACK writes the frame and OK, or, when a tick count is above its maximum, STATUS alone. -/
def Obligations.PackPacksOrRejects : Prop :=
  Sys2Proof.decode 0x00000001#32 = .ok .pack ∧
  ∀ s : State,
    (InRange s.field → ∃ F, IsPackedFrame s.field s.flags F ∧
      exec .pack s = .next { s with frame := F, status := ⟨0#3, 0#4, 0#11⟩ }) ∧
    (¬ InRange s.field → ∃ mask, IsRangeMask s.field mask ∧
      exec .pack s = .next { s with status := ⟨1#3, 0#4, mask⟩ })

/-- 41_encoder.md R103: B64ENC writes the token of FRAME, zeros behind it, the length 38 and OK. -/
def Obligations.B64encWritesTheToken : Prop :=
  Sys2Proof.decode 0x00000003#32 = .ok .b64enc ∧
  ∀ s : State, ∃ T, IsTokenOf s.frame T ∧
    exec .b64enc s = .next { s with token := T, tokenLen := 38#16, status := ⟨0#3, 0#4, 0#11⟩ }

/-- 41_encoder.md R106: ENCODE writes the frame, its token, the length and OK, or, when a tick count is above its
maximum, STATUS alone. -/
def Obligations.EncodeEncodesOrRejects : Prop :=
  Sys2Proof.decode 0x00000005#32 = .ok .encode ∧
  ∀ s : State,
    (InRange s.field → ∃ F T, IsPackedFrame s.field s.flags F ∧ IsTokenOf F T ∧
      exec .encode s = .next { s with
        frame := F, token := T, tokenLen := 38#16, status := ⟨0#3, 0#4, 0#11⟩ }) ∧
    (¬ InRange s.field → ∃ mask, IsRangeMask s.field mask ∧
      exec .encode s = .next { s with status := ⟨1#3, 0#4, mask⟩ })

/-- 42_decoder.md R120: TokenCheck gives the first cause that applies, in the fixed order. -/
def Obligations.TokenCheckGivesTheFirstCause : Prop :=
  ∀ (s : State) (c : FmtCause), s.tokenCause = c ↔ CauseApplies s c

/-- 42_decoder.md R122: B64DEC writes the frame of a valid token and OK, or STATUS alone with the token's cause. -/
def Obligations.B64decDecodesOrRejects : Prop :=
  Sys2Proof.decode 0x00000004#32 = .ok .b64dec ∧
  ∀ s : State,
    (CauseApplies s .none → ∃ F, IsFrameOf s.token F ∧
      exec .b64dec s = .next { s with frame := F, status := ⟨0#3, 0#4, 0#11⟩ }) ∧
    ∀ c n, (c, n) ∈ [(FmtCause.length, 1#4), (.badDataChar, 2#4), (.badPadChar, 3#4), (.padBits, 4#4)] →
      CauseApplies s c → exec .b64dec s = .next { s with status := ⟨2#3, n, 0#11⟩ }

/-- 42_decoder.md R125: UNPACK writes the tick counts and flags of FRAME and OK. -/
def Obligations.UnpackWritesFieldsAndFlags : Prop :=
  Sys2Proof.decode 0x00000002#32 = .ok .unpack ∧
  ∀ s : State, ∃ f g, IsUnpacked s.frame f g ∧
    exec .unpack s = .next { s with field := f, flags := g, status := ⟨0#3, 0#4, 0#11⟩ }

/-- 42_decoder.md R128: DECODE writes the frame of a valid token, its tick counts and flags and OK, or STATUS alone with
the token's cause. -/
def Obligations.DecodeDecodesOrRejects : Prop :=
  Sys2Proof.decode 0x00000006#32 = .ok .decode ∧
  ∀ s : State,
    (CauseApplies s .none → ∃ F f g, IsFrameOf s.token F ∧ IsUnpacked F f g ∧
      exec .decode s = .next { s with frame := F, field := f, flags := g, status := ⟨0#3, 0#4, 0#11⟩ }) ∧
    ∀ c n, (c, n) ∈ [(FmtCause.length, 1#4), (.badDataChar, 2#4), (.badPadChar, 3#4), (.padBits, 4#4)] →
      CauseApplies s c → exec .decode s = .next { s with status := ⟨2#3, n, 0#11⟩ }

/-! ## What the commands leave unchanged, and what they depend on -/

/-- The frame of the six commands: every offset of the window outside the registers that 20_memory.md R51 lists as
written reads as before, and nothing outside the registers changes. -/
def Obligations.CommandsWriteOnlyTheirRegisters : Prop :=
  ∀ (i : Instr) (s t : State), exec i s = .next t →
    (∀ off, off < 0x100 → ¬ writesOffset i off → busRead t off = busRead s off) ∧
    t.config = s.config ∧ t.resetAsserted = s.resetAsserted ∧ t.pending = s.pending ∧ t.result = s.result

/-- The outcome of a command is a function only of the registers it reads and of P_STRICT_PAD_BITS
(20_memory.md R51, 10_state.md R35). -/
def Obligations.CommandsReadOnlyTheirRegisters : Prop :=
  ∀ (i : Instr) (s t s' t' : State), ReadsAgree s t i → exec i s = .next s' → exec i t = .next t' →
    s'.status = t'.status ∧ (s'.status.err = 0#3 → WritesAgree s' t' i)

/-- Every CMD write is idempotent (20_memory.md R51). -/
def Obligations.RepeatedCommandChangesNothing : Prop :=
  ∀ (w : Word) (s t : State), execute w s = .next t → execute w t = .next t

/-- Errors are precise: the state after an erroring CMD write is the state before it, with only STATUS replaced
(60_exceptions.md R146). -/
def Obligations.ErrorsReplaceOnlyStatus : Prop :=
  ∀ (w : Word) (s t : State), execute w s = .next t → t.status.err ≠ 0#3 → t = { s with status := t.status }

/-- 10_state.md R30: RANGE_MASK after a range error, and 0 after any other outcome. -/
def Obligations.RangeMaskMarksEveryField : Prop :=
  ∀ (w : Word) (s t : State), execute w s = .next t →
    ((w = 0x00000001#32 ∨ w = 0x00000005#32) ∧ t.status.err = 1#3 →
      ∀ i : Fin 11, t.status.word.getLsbD (16 + i.val) = decide (s.field[i].toNat > MaxOf i)) ∧
    (¬ ((w = 0x00000001#32 ∨ w = 0x00000005#32) ∧ t.status.err = 1#3) → t.status.rangeMask = 0#11)

/-- The STATUS words of 60_exceptions.md R140. -/
def Obligations.StatusWordOfEachOutcome : Prop :=
  Status.ok.word = 0#32 ∧ CommandError.illegal.status.word = 3#32 ∧
  (∀ mask : BitVec 11, (CommandError.range mask).status.word = 1#32 ||| (mask.setWidth 32 <<< 16)) ∧
  ∀ c n, (c, n) ∈ [(FmtCause.length, 1#32), (.badDataChar, 2#32), (.badPadChar, 3#32), (.padBits, 4#32)] →
    (CommandError.format c).status.word = 2#32 ||| (n <<< 4)

/-- The field limits are exact (41_encoder.md R101): with the other tick counts in range, PACK accepts a tick count in
FIELD[i] exactly when it is at most MAX_i. -/
def Obligations.FieldLimitsAreExact : Prop :=
  ∀ (s : State) (i : Fin 11) (v : Word), InRange s.field →
    ∃ t, exec .pack { s with field := s.field.set i v } = .next t ∧
      (v.toNat ≤ MaxOf i ↔ t.status.err = 0#3) ∧ (¬ v.toNat ≤ MaxOf i ↔ t.status = ⟨1#3, 0#4, 1#11 <<< i.val⟩)

/-! ## Encoder and decoder together -/

/-- 41_encoder.md R102: bytes 0 to 26 depend only on FIELD, byte 27 only on FLAGS. -/
def Obligations.FlagsChangeOnlyTheLastByte : Prop :=
  ∀ s t s' t' : State, InRange s.field → InRange t.field → exec .pack s = .next s' → exec .pack t = .next t' →
    (s.field = t.field → ∀ (k : Nat) (h : k < 27), s'.frame[k] = t'.frame[k]) ∧
    (s.flags = t.flags → s'.frame[27] = t'.frame[27])

/-- 41_encoder.md R104: every token is 38 characters from the URL-safe alphabet. -/
def Obligations.TokensAreUrlSafe : Prop :=
  ∀ s : State, ∃ t, exec .b64enc s = .next t ∧ t.tokenLen = 38#16 ∧
    ∀ (k : Nat) (h : k < 38), ∃ c : Char, t.token[k] = BitVec.ofNat 8 c.toNat ∧
      (('A' ≤ c ∧ c ≤ 'Z') ∨ ('a' ≤ c ∧ c ≤ 'z') ∨ ('0' ≤ c ∧ c ≤ '9') ∨ c = '-' ∨ c = '_')

/-- 41_encoder.md R105: two different frames give two different tokens. -/
def Obligations.DifferentFramesGiveDifferentTokens : Prop :=
  ∀ s t s' t' : State, exec .b64enc s = .next s' → exec .b64enc t = .next t' → s.frame ≠ t.frame →
    ∃ (k : Nat) (h : k < 38), s'.token[k] ≠ t'.token[k]

/-- 30_encoding.md R71: in the token of an ENCODE, characters 4i to 4i+3 carry exactly wide field i, character 36 is `A`
and character 37 is `A`, `Q`, `g` or `w` by FLAGS. -/
def Obligations.TokenCharactersOfAnEncode : Prop :=
  ∀ s : State, InRange s.field → ∃ t, exec .encode s = .next t ∧
    (∀ (i : Nat) (h : i < 5),
      t.token[4 * i] = enc (s.field[i].extractLsb' 18 6) ∧ t.token[4 * i + 1] = enc (s.field[i].extractLsb' 12 6) ∧
      t.token[4 * i + 2] = enc (s.field[i].extractLsb' 6 6) ∧ t.token[4 * i + 3] = enc (s.field[i].extractLsb' 0 6)) ∧
    t.token[36] = BitVec.ofNat 8 'A'.toNat ∧
    t.token[37] = BitVec.ofNat 8
      (if s.flags = 0b00#2 then 'A' else if s.flags = 0b01#2 then 'Q' else if s.flags = 0b10#2 then 'g' else 'w').toNat

/-- 41_encoder.md R107: ENCODE is PACK followed, only if that ends with ERR = OK, by B64ENC. -/
def Obligations.EncodeIsPackThenB64enc : Prop :=
  ∀ s : State, ∃ t, exec .pack s = .next t ∧
    (t.status.err = 0#3 → exec .encode s = exec .b64enc t) ∧ (t.status.err ≠ 0#3 → exec .encode s = .next t)

/-- DECODE is B64DEC followed, only if that ends with ERR = OK, by UNPACK (42_decoder.md R128, 92 D21). -/
def Obligations.DecodeIsB64decThenUnpack : Prop :=
  ∀ s : State, ∃ t, exec .b64dec s = .next t ∧
    (t.status.err = 0#3 → exec .decode s = exec .unpack t) ∧ (t.status.err ≠ 0#3 → exec .decode s = .next t)

/-- 42_decoder.md R123: TokenCheck accepts exactly what RefDecode accepts, and then RefDecode's bytes are the frame;
`chars` is the token as characters, of which TOKEN holds the first 64. -/
def Obligations.TokenCheckAcceptsWhatRefDecodeAccepts : Prop :=
  ∀ (s : State) (chars : List Byte), chars.length = s.tokenLen.toNat →
    (∀ (k : Nat) (h : k < 64) (h' : k < chars.length), chars[k] = s.token[k]) →
    (s.tokenCause = .none →
      ∃ F, IsFrameOf s.token F ∧ refDecode s.config.strictPadBits chars = some F.toList) ∧
    (s.tokenCause ≠ .none → refDecode s.config.strictPadBits chars = none)

/-- 42_decoder.md R124: the spellings B64DEC accepts for a frame are exactly the combinations of the three variations,
and every other string is rejected. -/
def Obligations.AcceptedSpellingsOfAFrame : Prop :=
  (∀ (s : State) (F : Vector Byte 28),
    exec .b64dec s = .next { s with frame := F, status := ⟨0#3, 0#4, 0#11⟩ } ↔ Spells s F) ∧
  ∀ s : State, (∀ F, ¬ Spells s F) → ∃ n, n ≠ 0#4 ∧ exec .b64dec s = .next { s with status := ⟨2#3, n, 0#11⟩ }

/-- TOKEN bytes at index TOKEN_LEN and above have no effect on a decode (70_reset_and_hazards.md R175, 93 U13). -/
def Obligations.TokenBytesBeyondTheLengthAreIgnored : Prop :=
  ∀ (i : Instr) (s t : State) (T : Vector Byte 64), i = .b64dec ∨ i = .decode →
    (∀ (k : Nat) (h : k < 64), k < s.tokenLen.toNat → T[k] = s.token[k]) →
    exec i s = .next t → exec i { s with token := T } = .next { t with token := T }

/-- A token with a byte ≥ 0x80 within its length is never accepted (40_host_bus.md R94). R94 names the causes LENGTH and
BAD_DATA_CHAR; by 42_decoder.md R120, which fixes the causes (10_state.md R29), the cause is BAD_PAD_CHAR when the byte
stands at index 38 or 39 behind valid data (log entry 9). -/
def Obligations.NonAsciiTokensAreRejected : Prop :=
  ∀ (s : State) (k : Nat) (h : k < 64), k < s.tokenLen.toNat → 0x80 ≤ s.token[k].toNat →
    ∃ n, exec .b64dec s = .next { s with status := ⟨2#3, n, 0#11⟩ } ∧
      exec .decode s = .next { s with status := ⟨2#3, n, 0#11⟩ } ∧
      (n = 1#4 ∨ n = 2#4 ∨ (n = 3#4 ∧ 38 ≤ k))

/-- 42_decoder.md R126: bits 7:2 of frame byte 27 have no effect on UNPACK. -/
def Obligations.UnpackIgnoresReservedFlagBits : Prop :=
  ∀ (s : State) (b : BitVec 6), ∃ t, exec .unpack s = .next t ∧ t.status.err = 0#3 ∧
    exec .unpack { s with frame := s.frame.set 27 (b ++ s.frame[27].extractLsb' 0 2) } =
      .next { t with frame := s.frame.set 27 (b ++ s.frame[27].extractLsb' 0 2) }

/-- 42_decoder.md R127: after UNPACK a PACK never raises RangeError and rebuilds the frame, bits 7:2 of byte 27 cleared. -/
def Obligations.PackAfterUnpackRebuildsTheFrame : Prop :=
  ∀ s : State, ∃ t u, exec .unpack s = .next t ∧ InRange t.field ∧ t.flags = s.frame[27].extractLsb' 0 2 ∧
    exec .pack t = .next u ∧ u.status.err = 0#3 ∧
    (∀ (k : Nat) (h : k < 27), u.frame[k] = s.frame[k]) ∧ u.frame[27] = s.frame[27] &&& 0b00000011#8

/-- 42_decoder.md R129: the token-level and the configuration-level round trip, whatever P_STRICT_PAD_BITS is. -/
def Obligations.EncoderAndDecoderRoundTrip : Prop :=
  (∀ s : State, ∃ t u, exec .b64enc s = .next t ∧ exec .b64dec t = .next u ∧
    u.frame = s.frame ∧ u.status.word = 0#32) ∧
  ∀ s : State, InRange s.field → ∃ t u, exec .encode s = .next t ∧ exec .decode t = .next u ∧
    u.field = s.field ∧ u.flags = s.flags ∧ u.status.word = 0#32

/-! ## The alphabet -/

/-- ENC is the table of 30_encoding.md R67. -/
def Obligations.EncIsTheUrlSafeAlphabet : Prop :=
  ∀ v : Sextet,
    ((['A', 'B', 'C', 'D', 'E', 'F', 'G', 'H', 'I', 'J', 'K', 'L', 'M', 'N', 'O', 'P', 'Q', 'R', 'S', 'T', 'U', 'V',
      'W', 'X', 'Y', 'Z', 'a', 'b', 'c', 'd', 'e', 'f', 'g', 'h', 'i', 'j', 'k', 'l', 'm', 'n', 'o', 'p', 'q', 'r',
      's', 't', 'u', 'v', 'w', 'x', 'y', 'z', '0', '1', '2', '3', '4', '5', '6', '7', '8', '9', '-', '_'] : List Char).map
      fun c => BitVec.ofNat 8 c.toNat)[v.toNat]? = some (enc v)

/-- DEC inverts ENC, takes the standard spellings of 62 and 63, and is INVALID on every byte that is none of the 66
characters of 30_encoding.md R68. -/
def Obligations.DecInvertsEnc : Prop :=
  (∀ v : Sextet, dec (enc v) = some v) ∧ dec 0x2B#8 = some 62#6 ∧ dec 0x2F#8 = some 63#6 ∧
  ∀ b : Byte, (∀ v, b ≠ enc v) → b ≠ 0x2B#8 → b ≠ 0x2F#8 → dec b = none

/-! ## The host bus -/

/-- The register map (20_memory.md R41, R42, R48): no register answers exactly at the misaligned and the unmapped
offsets. -/
def Obligations.RegisterMapHasExactlyTheUnmappedHoles : Prop :=
  ∀ off, off < 0x100 → (regAt off = none ↔ (off % 4 ≠ 0 ∨ Unmapped off))

/-- 40_host_bus.md R80: the response and the data of a bus read at every offset, which changes no register. -/
def Obligations.BusReadReturnsTheRegister : Prop :=
  ∀ (s : State) (rest : List HostAction) (off : Nat), off < 0x100 → s.resetAsserted = false →
    s.pending = .busRead (s.config.base + off) :: rest →
    ∃ (r : Resp) (d : Word), step s = .next { s with pending := rest, result := some (.read r d) } ∧
      (off % 4 ≠ 0 ∨ Unmapped off → r = .busErr ∧ d = 0#32) ∧
      (¬ (off % 4 ≠ 0 ∨ Unmapped off) → r = .ok) ∧
      (off = 0x000 → d = 0#32) ∧
      (off = 0x004 → d = 0#5 ++ s.status.rangeMask ++ 0#8 ++ s.status.fmtCause ++ 0#1 ++ s.status.err) ∧
      (off = 0x008 → d = 0#30 ++ s.flags) ∧
      (∀ (i : Nat) (h : i < 11), off = 0x010 + 4 * i → d = s.field[i]) ∧
      (∀ (k : Nat) (h : k < 7), off = 0x040 + 4 * k →
        d = s.frame[4 * k] ++ s.frame[4 * k + 1] ++ s.frame[4 * k + 2] ++ s.frame[4 * k + 3]) ∧
      (off = 0x060 → d = 0#16 ++ s.tokenLen) ∧
      (∀ (k : Nat) (h : k < 16), off = 0x080 + 4 * k →
        d = s.token[4 * k] ++ s.token[4 * k + 1] ++ s.token[4 * k + 2] ++ s.token[4 * k + 3])

/-- 40_host_bus.md R81: what a bus write does at every offset. -/
def Obligations.BusWriteStoresTheRegister : Prop :=
  ∀ (s : State) (rest : List HostAction) (off : Nat) (v : Word), off < 0x100 → s.resetAsserted = false →
    s.pending = .busWrite (s.config.base + off) v :: rest →
    (off % 4 ≠ 0 ∨ Unmapped off → step s = .next { s with pending := rest, result := some (.write .busErr) }) ∧
    (off = 0x000 → ∃ t, execute v { s with pending := rest } = .next t ∧
      step s = .next { t with result := some (.write .ok) }) ∧
    (off = 0x004 → step s = .next { s with pending := rest, result := some (.write .ok) }) ∧
    (off = 0x008 → step s = .next { s with
      pending := rest, flags := v.extractLsb' 0 2, result := some (.write .ok) }) ∧
    (∀ (i : Nat) (h : i < 11), off = 0x010 + 4 * i → step s = .next { s with
      pending := rest, field := s.field.set i v, result := some (.write .ok) }) ∧
    (∀ (k : Nat) (h : k < 7), off = 0x040 + 4 * k → ∃ F : Vector Byte 28,
      step s = .next { s with pending := rest, frame := F, result := some (.write .ok) } ∧
      F[4 * k] = v.extractLsb' 24 8 ∧ F[4 * k + 1] = v.extractLsb' 16 8 ∧ F[4 * k + 2] = v.extractLsb' 8 8 ∧
      F[4 * k + 3] = v.extractLsb' 0 8 ∧ ∀ (j : Nat) (hj : j < 28), j / 4 ≠ k → F[j] = s.frame[j]) ∧
    (off = 0x060 → step s = .next { s with
      pending := rest, tokenLen := v.extractLsb' 0 16, result := some (.write .ok) }) ∧
    (∀ (k : Nat) (h : k < 16), off = 0x080 + 4 * k → ∃ T : Vector Byte 64,
      step s = .next { s with pending := rest, token := T, result := some (.write .ok) } ∧
      T[4 * k] = v.extractLsb' 24 8 ∧ T[4 * k + 1] = v.extractLsb' 16 8 ∧ T[4 * k + 2] = v.extractLsb' 8 8 ∧
      T[4 * k + 3] = v.extractLsb' 0 8 ∧ ∀ (j : Nat) (hj : j < 64), j / 4 ≠ k → T[j] = s.token[j])

/-- The block does not respond to an address outside the window (20_memory.md R40). -/
def Obligations.AddressesOutsideTheWindowAreSilent : Prop :=
  ∀ (s : State) (rest : List HostAction) (addr : Nat) (v : Word),
    addr < 0x100 * s.config.basePage ∨ 0x100 * s.config.basePage + 0x100 ≤ addr →
    s.pending = .busRead addr :: rest ∨ s.pending = .busWrite addr v :: rest →
    step s = .next { s with pending := rest, result := some .silent }

/-- 70_reset_and_hazards.md R171: an access to the window while reset is asserted has no step. -/
def Obligations.AccessDuringResetIsRefused : Prop :=
  ∀ (s : State) (rest : List HostAction) (off : Nat) (v : Word), off < 0x100 → s.resetAsserted = true →
    s.pending = .busRead (s.config.base + off) :: rest ∨ s.pending = .busWrite (s.config.base + off) v :: rest →
    step s = .refused .accessDuringReset

/-- The host's tick counts (40_host_bus.md R97, 93 U5): saturated at 2^32 − 1, so that a count above the field maximum
stays above it; a negative or missing count is refused. -/
def Obligations.PresentedTickCounts : Prop :=
  ∀ (s : State) (rest : List HostAction) (i : Fin 11) (ticks : Option Int), s.resetAsserted = false →
    s.pending = .presentTick i ticks :: rest →
    (ticks = none → step s = .refused .noTickCount) ∧
    (∀ n : Int, ticks = some n → n < 0 → step s = .refused .negativeTickCount) ∧
    (∀ n : Int, ticks = some n → 0 ≤ n → ∃ v : Word,
      step s = .next { s with pending := rest, field := s.field.set i v, result := some (.write .ok) } ∧
      (v.toNat : Int) = min n (2 ^ 32 - 1) ∧ (n > MaxOf i → v.toNat > MaxOf i))

/-- Nothing but a reset or a command changes STATUS (10_state.md R27). -/
def Obligations.StatusChangesOnlyByCommandOrReset : Prop :=
  ∀ s t : State, step s = .next t → t.status ≠ s.status →
    ∃ a rest, s.pending = a :: rest ∧
      (a = .assertReset ∨ a = .releaseReset ∨ ∃ w, a = .busWrite s.config.base w)

/-- The block takes no step of its own (10_state.md R20). -/
def Obligations.BlockNeverActsByItself : Prop :=
  ∀ s : State, s.pending = [] → step s = .next s

/-- A step depends on the oldest action alone: later actions of the host change nothing in it (20_memory.md R52). -/
def Obligations.LaterActionsDoNotAffectAStep : Prop :=
  ∀ (s t : State) (more : List HostAction), s.pending ≠ [] → step s = .next t →
    step { s with pending := s.pending ++ more } = .next { t with pending := t.pending ++ more }

/-- A step has a next state exactly when the host's oldest action is not forbidden (60_exceptions.md R150). -/
def Obligations.OnlyForbiddenActionsHaveNoStep : Prop :=
  ∀ s : State, s.SafeStep ↔ ¬ ∃ a rest, s.pending = a :: rest ∧ Forbidden s a

/-! ## The host's conversion -/

/-- The host's rounding is to the nearest integer, whatever P_ROUND_TIES is (40_host_bus.md R96). -/
def Obligations.HostTicksAreNearest : Prop :=
  ∀ x : Rat, |(hostTicks x : Rat) - x * 10000| ≤ 1 / 2

/-- A decoded value in inches gives its tick count back: no precision is lost on values quantized to 1/10000 inch
(40_host_bus.md R96, R98). -/
def Obligations.QuantizedInchesKeepTheirTicks : Prop :=
  ∀ v : Word, hostTicks (hostInches v) = v.toNat
end

