-- ==== Sys2Proof/Laws/Base64.lean ====
section
/-! SUPPORT. What the base64 functions do, once each: the alphabet, a token's characters, the token check. -/

namespace Sys2Proof.Machine

/-- A byte decodes to v exactly when it is v's URL-safe character or the standard spelling of 62 or 63. -/
theorem dec_eq_some_iff (b : Byte) (v : Sextet) :
    dec b = some v ↔ b = enc v ∨ (v = 62#6 ∧ b = 0x2B#8) ∨ (v = 63#6 ∧ b = 0x2F#8) := by
  have forth : ∀ b : Byte, (dec b).all fun v =>
      b = enc v ∨ (v = 62#6 ∧ b = 0x2B#8) ∨ (v = 63#6 ∧ b = 0x2F#8) := by decide +kernel
  have back : ∀ v : Sextet, dec (enc v) = some v := by decide +kernel
  constructor
  · intro h
    simpa [h] using forth b
  · rintro (rfl | ⟨rfl, rfl⟩ | ⟨rfl, rfl⟩)
    · exact back v
    · decide
    · decide

/-- The pad character is no data character. -/
theorem dec_padChar : dec padChar = none := by decide

/-- Reversing the substitutions before the standard alphabet is DEC. -/
theorem standardIndex_reverseSubstitution (b : Byte) : standardIndex (reverseSubstitution b) = dec b := by
  revert b; decide +kernel

/-- A token byte of the data part. -/
theorem tokenBuffer_data (frame : Vector Byte 28) (k : Nat) (h : k < 38) :
    (tokenBuffer frame)[k] = enc (tokIndices frame)[k] := by
  simp [tokenBuffer, tok, h]

/-- A token byte beyond the token. -/
theorem tokenBuffer_rest (frame : Vector Byte 28) (k : Nat) (h : k < 64) (hk : 38 ≤ k) :
    (tokenBuffer frame)[k] = 0x00#8 := by
  simp [tokenBuffer, Nat.not_lt.mpr hk]

/-- The four indices of group g of a frame. -/
theorem tokIndices_group (frame : Vector Byte 28) (g : Nat) (h : g < 9) :
    (tokIndices frame)[4 * g] = (group24 frame[3 * g] frame[3 * g + 1] frame[3 * g + 2]).extractLsb' 18 6 ∧
    (tokIndices frame)[4 * g + 1] = (group24 frame[3 * g] frame[3 * g + 1] frame[3 * g + 2]).extractLsb' 12 6 ∧
    (tokIndices frame)[4 * g + 2] = (group24 frame[3 * g] frame[3 * g + 1] frame[3 * g + 2]).extractLsb' 6 6 ∧
    (tokIndices frame)[4 * g + 3] = (group24 frame[3 * g] frame[3 * g + 1] frame[3 * g + 2]).extractLsb' 0 6 := by
  have d (r : Nat) (hr : r < 4) : (4 * g + r) / 4 = g := by omega
  have m (r : Nat) (hr : r < 4) : (4 * g + r) % 4 = r := by omega
  refine ⟨?_, ?_, ?_, ?_⟩ <;> simp only [tokIndices, getElem_tabulate] <;> rw [dif_pos (by omega)]
  · simp only [Nat.mul_div_cancel_left g (by decide : 0 < 4), Nat.mul_mod_right]
  · simp only [d 1 (by decide), m 1 (by decide)]
  · simp only [d 2 (by decide), m 2 (by decide)]
  · simp only [d 3 (by decide), m 3 (by decide)]

/-- The two indices of the last byte of a frame. -/
theorem tokIndices_last (frame : Vector Byte 28) :
    (tokIndices frame)[36] = frame[27].extractLsb' 2 6 ∧
    (tokIndices frame)[37] = frame[27].extractLsb' 0 2 ++ 0#4 := by
  simp [tokIndices]

/-- The three bytes of group g of a decoded frame. -/
theorem frm_group (token : Vector Byte 64) (g : Nat) (h : g < 9) :
    let x := group24OfSextets (sextetAt token (4 * g) (by omega)) (sextetAt token (4 * g + 1) (by omega))
      (sextetAt token (4 * g + 2) (by omega)) (sextetAt token (4 * g + 3) (by omega))
    (frm token)[3 * g] = x.extractLsb' 16 8 ∧ (frm token)[3 * g + 1] = x.extractLsb' 8 8 ∧
    (frm token)[3 * g + 2] = x.extractLsb' 0 8 := by
  have d (r : Nat) (hr : r < 3) : (3 * g + r) / 3 = g := by omega
  have m (r : Nat) (hr : r < 3) : (3 * g + r) % 3 = r := by omega
  refine ⟨?_, ?_, ?_⟩ <;> simp only [frm, getElem_tabulate] <;> rw [dif_pos (by omega)]
  · simp only [Nat.mul_div_cancel_left g (by decide : 0 < 3), Nat.mul_mod_right]
  · simp only [d 1 (by decide), m 1 (by decide)]
  · simp only [d 2 (by decide), m 2 (by decide)]

/-- The last byte of a decoded frame. -/
theorem frm_last (token : Vector Byte 64) :
    (frm token)[27] = sextetAt token 36 (by omega) ++ (sextetAt token 37 (by omega)).extractLsb' 4 2 := by
  simp [frm]

/-- The token check passes exactly when no cause of 42_decoder.md R120 applies. -/
theorem tokenCheck_eq_none_iff (strict : Bool) (token : Vector Byte 64) (len : BitVec 16) :
    tokenCheck strict token len = .none ↔
      (38 ≤ len.toNat ∧ len.toNat ≤ 40) ∧
      (∀ i : Fin 38, (dec token[i.val]).isSome) ∧
      (∀ j : Fin 2, 38 + j.val < len.toNat → token[38 + j.val] = padChar) ∧
      (strict = true → (sextetAt token 37 (by omega)).extractLsb' 0 4 = 0#4) := by
  unfold tokenCheck
  simp only
  split
  · rename_i h
    simp only [reduceCtorEq, false_iff]
    rintro ⟨hl, -⟩
    omega
  rename_i hl
  split
  · rename_i h
    simp only [List.any_eq_true, List.mem_finRange, true_and] at h
    obtain ⟨i, hi⟩ := h
    simp only [reduceCtorEq, false_iff]
    rintro ⟨-, hd, -⟩
    have := hd i
    simp_all
  rename_i hd
  split
  · rename_i h
    simp only [List.any_eq_true, List.mem_finRange, true_and, Bool.and_eq_true, decide_eq_true_eq,
      bne_iff_ne] at h
    obtain ⟨j, hj, hne⟩ := h
    simp only [reduceCtorEq, false_iff]
    rintro ⟨-, -, hp, -⟩
    exact hne (hp j hj)
  rename_i hp
  split
  · rename_i h
    simp only [Bool.and_eq_true, bne_iff_ne] at h
    simp only [reduceCtorEq, false_iff]
    rintro ⟨-, -, -, hs⟩
    exact h.2 (hs h.1)
  rename_i hs
  simp only [true_iff]
  refine ⟨by omega, ?_, ?_, ?_⟩
  · intro i
    simp only [List.any_eq_true, List.mem_finRange, true_and, not_exists] at hd
    have := hd i
    cases h : dec token[i.val] <;> simp_all
  · intro j hj
    simp only [List.any_eq_true, List.mem_finRange, true_and, not_exists, Bool.and_eq_true,
      decide_eq_true_eq, bne_iff_ne, not_and, ne_eq, not_not] at hp
    exact hp j hj
  · intro h
    simp only [Bool.and_eq_true, bne_iff_ne, not_and, ne_eq, not_not] at hs
    exact hs h

end Sys2Proof.Machine
end

