-- ==== Sys2Proof/Laws/Operands.lean ====
section
/-! SUPPORT. What the operand functions and the register window do, once each: the range mask, the frame layout, the
register map and the buffer words. -/

namespace Sys2Proof.Machine

theorem outOfRange_iff (field : Vector Word 11) (i : Fin 11) :
    outOfRange field i = true ↔ maxTicks i < field[i].toNat := by simp [outOfRange]

/-- Bit i of the mask a loop over `l` makes. -/
theorem foldl_mask_bit (p : Fin 11 → Bool) (l : List (Fin 11)) (m : BitVec 11) (i : Fin 11) :
    (l.foldl (fun mask j => if p j then mask ||| (1#11 <<< j.val) else mask) m)[i.val]
      = (m[i.val] || (decide (i ∈ l) && p i)) := by
  induction l generalizing m with
  | nil => simp
  | cons j l ih =>
    rw [List.foldl_cons, ih]
    by_cases hj : i = j
    · subst hj
      cases hp : p i <;> simp
    · have hb : (1#11 <<< j.val)[i.val] = false := by
        have hne : i.val ≠ j.val := fun h => hj (Fin.ext h)
        simp; omega
      cases hp : p j
      · simp [hj]
      · rw [if_pos rfl, BitVec.getElem_or, hb]; simp [hj]

/-- Bit i of the range mask is the range check of FIELD[i]. -/
theorem rangeMask_bit (field : Vector Word 11) (i : Fin 11) :
    (rangeMask field)[i.val] = outOfRange field i := by
  unfold rangeMask
  rw [foldl_mask_bit]; simp

/-- The range check passes exactly when no tick count is above its maximum. -/
theorem rangeMask_eq_zero_iff (field : Vector Word 11) :
    rangeMask field = 0#11 ↔ ∀ i, outOfRange field i = false := by
  constructor
  · intro h i
    rw [← rangeMask_bit, h]; simp
  · intro h
    apply BitVec.eq_of_getElem_eq
    intro k hk
    simpa using (rangeMask_bit field ⟨k, hk⟩).trans (h ⟨k, hk⟩)

/-- The three bytes of a wide field. -/
theorem packFrame_wide (field : Vector Word 11) (flags : BitVec 2) (i : Nat) (h : i < 5) :
    (packFrame field flags)[3 * i] = field[i].extractLsb' 16 8 ∧
    (packFrame field flags)[3 * i + 1] = field[i].extractLsb' 8 8 ∧
    (packFrame field flags)[3 * i + 2] = field[i].extractLsb' 0 8 := by
  have d (r : Nat) (hr : r < 3) : (3 * i + r) / 3 = i := by omega
  have m (r : Nat) (hr : r < 3) : (3 * i + r) % 3 = r := by omega
  refine ⟨?_, ?_, ?_⟩ <;> simp only [packFrame, byteLane, getElem_tabulate] <;> rw [dif_pos (by omega)]
  · simp only [Nat.mul_div_cancel_left i (by decide : 0 < 3), Nat.mul_mod_right]
  · simp only [d 1 (by decide), m 1 (by decide)]
  · simp only [d 2 (by decide), m 2 (by decide)]

/-- The two bytes of a narrow field. -/
theorem packFrame_narrow (field : Vector Word 11) (flags : BitVec 2) (j : Nat) (h : j < 6) :
    (packFrame field flags)[15 + 2 * j] = field[5 + j].extractLsb' 8 8 ∧
    (packFrame field flags)[16 + 2 * j] = field[5 + j].extractLsb' 0 8 := by
  constructor <;> simp only [packFrame, byteLane, getElem_tabulate] <;>
    rw [dif_neg (by omega), dif_pos (by omega)]
  · have a : 5 + (15 + 2 * j - 15) / 2 = 5 + j := by omega
    have b : 1 - (15 + 2 * j - 15) % 2 = 1 := by omega
    simp only [a, b]
  · have a : 5 + (16 + 2 * j - 15) / 2 = 5 + j := by omega
    have b : 1 - (16 + 2 * j - 15) % 2 = 0 := by omega
    simp only [a, b, Nat.mul_zero]

/-- The flags byte. -/
theorem packFrame_flags (field : Vector Word 11) (flags : BitVec 2) :
    (packFrame field flags)[27] = 0#6 ++ flags := by
  simp [packFrame]

/-- A wide tick count of a frame. -/
theorem unpackFields_wide (frame : Vector Byte 28) (i : Nat) (h : i < 5) :
    (unpackFields frame)[i] = (frame[3 * i] ++ frame[3 * i + 1] ++ frame[3 * i + 2]).setWidth 32 := by
  simp [unpackFields, unpackTick, h]

/-- A narrow tick count of a frame. -/
theorem unpackFields_narrow (frame : Vector Byte 28) (j : Nat) (h : j < 6) :
    (unpackFields frame)[5 + j] = (frame[15 + 2 * j] ++ frame[16 + 2 * j]).setWidth 32 := by
  simp [unpackFields, unpackTick]

/-- A write of FRAME word k stores its four bytes big-endian and leaves every other byte. -/
theorem setFrameWord_getElem (frame : Vector Byte 28) (k : Fin 7) (v : Word) (j : Nat) (h : j < 28) :
    (setFrameWord frame k v)[j] = if j / 4 = k.val then byteLane v (3 - j % 4) else frame[j] := by
  simp only [setFrameWord, Vector.getElem_set]
  split
  · obtain rfl : j = 4 * k.val + 3 := by omega
    rw [if_pos (by omega), show (4 * k.val + 3) % 4 = 3 by omega]
  split
  · obtain rfl : j = 4 * k.val + 2 := by omega
    rw [if_pos (by omega), show (4 * k.val + 2) % 4 = 2 by omega]
  split
  · obtain rfl : j = 4 * k.val + 1 := by omega
    rw [if_pos (by omega), show (4 * k.val + 1) % 4 = 1 by omega]
  split
  · obtain rfl : j = 4 * k.val := by omega
    rw [if_pos (by omega), show 4 * k.val % 4 = 0 by omega]
  · rw [if_neg (by omega)]

/-- A write of TOKEN word k stores its four bytes big-endian and leaves every other byte. -/
theorem setTokenWord_getElem (token : Vector Byte 64) (k : Fin 16) (v : Word) (j : Nat) (h : j < 64) :
    (setTokenWord token k v)[j] = if j / 4 = k.val then byteLane v (3 - j % 4) else token[j] := by
  simp only [setTokenWord, Vector.getElem_set]
  split
  · obtain rfl : j = 4 * k.val + 3 := by omega
    rw [if_pos (by omega), show (4 * k.val + 3) % 4 = 3 by omega]
  split
  · obtain rfl : j = 4 * k.val + 2 := by omega
    rw [if_pos (by omega), show (4 * k.val + 2) % 4 = 2 by omega]
  split
  · obtain rfl : j = 4 * k.val + 1 := by omega
    rw [if_pos (by omega), show (4 * k.val + 1) % 4 = 1 by omega]
  split
  · obtain rfl : j = 4 * k.val := by omega
    rw [if_pos (by omega), show 4 * k.val % 4 = 0 by omega]
  · rw [if_neg (by omega)]

/-- The register at a register's offset. -/
theorem regAt_offset (r : Reg) : regAt r.offset = some r := by
  cases r with
  | field i => revert i; decide
  | frameWord k => revert k; decide
  | tokenWord k => revert k; decide
  | _ => decide

/-- Where the map finds a register, the offset is that register's. -/
theorem eq_offset_of_regAt {off : Nat} {r : Reg} (h : regAt off = some r) : off = r.offset := by
  unfold regAt at h
  split at h
  · cases h
  rename_i h4
  repeat' split at h
  all_goals cases h
  all_goals simp only [Reg.offset]
  all_goals omega

/-- An address of the window, and its offset. -/
theorem offsetOf_eq_some_iff {c : Configuration} {addr off : Nat} :
    offsetOf c addr = some off ↔ addr = c.base + off ∧ off < 0x100 := by
  unfold offsetOf Config.windowBytes
  split
  · rw [Option.some.injEq]; omega
  · simp; omega

/-- The bus address of offset 0x000 is P_BASE. -/
@[simp] theorem offsetOf_base (c : Configuration) : offsetOf c c.base = some 0 := by
  simp [offsetOf_eq_some_iff]

end Sys2Proof.Machine
end

