-- ==== Sys2Proof/Laws/PerInstr.lean ====
section
/-! SUPPORT. What holds of every command as syntax, one lemma per constructor. -/

namespace Sys2Proof.Laws

/-- The command's word is well formed, with RSVD = 0 and its own OP (30_encoding.md R60, R61). -/
def EncodedWord.Statement (i : Instr) : Prop :=
  i.wellFormed = true ∧ commandWordWellFormed (encode i) = true ∧
    rsvdField (encode i) = 0#28 ∧ opField (encode i) = encodeOp i

theorem EncodedWord.pack : EncodedWord.Statement .pack := by unfold EncodedWord.Statement; decide
theorem EncodedWord.unpack : EncodedWord.Statement .unpack := by unfold EncodedWord.Statement; decide
theorem EncodedWord.b64enc : EncodedWord.Statement .b64enc := by unfold EncodedWord.Statement; decide
theorem EncodedWord.b64dec : EncodedWord.Statement .b64dec := by unfold EncodedWord.Statement; decide
theorem EncodedWord.encode : EncodedWord.Statement .encode := by unfold EncodedWord.Statement; decide
theorem EncodedWord.decode : EncodedWord.Statement .decode := by unfold EncodedWord.Statement; decide

end Sys2Proof.Laws
end

