-- ==== Sys2Proof/Laws/State.lean ====
section
/-! SUPPORT. One lemma per field per update of the state, true by rfl. -/

namespace Sys2Proof.Machine.State

/-! `withField`. -/

@[simp] theorem withField_field (s : State) (v : Vector Word 11) : (s.withField v).field = v := rfl
@[simp] theorem withField_flags (s : State) (v : Vector Word 11) : (s.withField v).flags = s.flags := rfl
@[simp] theorem withField_frame (s : State) (v : Vector Word 11) : (s.withField v).frame = s.frame := rfl
@[simp] theorem withField_token (s : State) (v : Vector Word 11) : (s.withField v).token = s.token := rfl
@[simp] theorem withField_tokenLen (s : State) (v : Vector Word 11) : (s.withField v).tokenLen = s.tokenLen := rfl
@[simp] theorem withField_status (s : State) (v : Vector Word 11) : (s.withField v).status = s.status := rfl
@[simp] theorem withField_config (s : State) (v : Vector Word 11) : (s.withField v).config = s.config := rfl
@[simp] theorem withField_resetAsserted (s : State) (v : Vector Word 11) : (s.withField v).resetAsserted = s.resetAsserted := rfl
@[simp] theorem withField_pending (s : State) (v : Vector Word 11) : (s.withField v).pending = s.pending := rfl
@[simp] theorem withField_result (s : State) (v : Vector Word 11) : (s.withField v).result = s.result := rfl

/-! `withFlags`. -/

@[simp] theorem withFlags_field (s : State) (v : BitVec 2) : (s.withFlags v).field = s.field := rfl
@[simp] theorem withFlags_flags (s : State) (v : BitVec 2) : (s.withFlags v).flags = v := rfl
@[simp] theorem withFlags_frame (s : State) (v : BitVec 2) : (s.withFlags v).frame = s.frame := rfl
@[simp] theorem withFlags_token (s : State) (v : BitVec 2) : (s.withFlags v).token = s.token := rfl
@[simp] theorem withFlags_tokenLen (s : State) (v : BitVec 2) : (s.withFlags v).tokenLen = s.tokenLen := rfl
@[simp] theorem withFlags_status (s : State) (v : BitVec 2) : (s.withFlags v).status = s.status := rfl
@[simp] theorem withFlags_config (s : State) (v : BitVec 2) : (s.withFlags v).config = s.config := rfl
@[simp] theorem withFlags_resetAsserted (s : State) (v : BitVec 2) : (s.withFlags v).resetAsserted = s.resetAsserted := rfl
@[simp] theorem withFlags_pending (s : State) (v : BitVec 2) : (s.withFlags v).pending = s.pending := rfl
@[simp] theorem withFlags_result (s : State) (v : BitVec 2) : (s.withFlags v).result = s.result := rfl

/-! `withFrame`. -/

@[simp] theorem withFrame_field (s : State) (v : Vector Byte 28) : (s.withFrame v).field = s.field := rfl
@[simp] theorem withFrame_flags (s : State) (v : Vector Byte 28) : (s.withFrame v).flags = s.flags := rfl
@[simp] theorem withFrame_frame (s : State) (v : Vector Byte 28) : (s.withFrame v).frame = v := rfl
@[simp] theorem withFrame_token (s : State) (v : Vector Byte 28) : (s.withFrame v).token = s.token := rfl
@[simp] theorem withFrame_tokenLen (s : State) (v : Vector Byte 28) : (s.withFrame v).tokenLen = s.tokenLen := rfl
@[simp] theorem withFrame_status (s : State) (v : Vector Byte 28) : (s.withFrame v).status = s.status := rfl
@[simp] theorem withFrame_config (s : State) (v : Vector Byte 28) : (s.withFrame v).config = s.config := rfl
@[simp] theorem withFrame_resetAsserted (s : State) (v : Vector Byte 28) : (s.withFrame v).resetAsserted = s.resetAsserted := rfl
@[simp] theorem withFrame_pending (s : State) (v : Vector Byte 28) : (s.withFrame v).pending = s.pending := rfl
@[simp] theorem withFrame_result (s : State) (v : Vector Byte 28) : (s.withFrame v).result = s.result := rfl

/-! `withToken`. -/

@[simp] theorem withToken_field (s : State) (v : Vector Byte 64) : (s.withToken v).field = s.field := rfl
@[simp] theorem withToken_flags (s : State) (v : Vector Byte 64) : (s.withToken v).flags = s.flags := rfl
@[simp] theorem withToken_frame (s : State) (v : Vector Byte 64) : (s.withToken v).frame = s.frame := rfl
@[simp] theorem withToken_token (s : State) (v : Vector Byte 64) : (s.withToken v).token = v := rfl
@[simp] theorem withToken_tokenLen (s : State) (v : Vector Byte 64) : (s.withToken v).tokenLen = s.tokenLen := rfl
@[simp] theorem withToken_status (s : State) (v : Vector Byte 64) : (s.withToken v).status = s.status := rfl
@[simp] theorem withToken_config (s : State) (v : Vector Byte 64) : (s.withToken v).config = s.config := rfl
@[simp] theorem withToken_resetAsserted (s : State) (v : Vector Byte 64) : (s.withToken v).resetAsserted = s.resetAsserted := rfl
@[simp] theorem withToken_pending (s : State) (v : Vector Byte 64) : (s.withToken v).pending = s.pending := rfl
@[simp] theorem withToken_result (s : State) (v : Vector Byte 64) : (s.withToken v).result = s.result := rfl

/-! `withTokenLen`. -/

@[simp] theorem withTokenLen_field (s : State) (v : BitVec 16) : (s.withTokenLen v).field = s.field := rfl
@[simp] theorem withTokenLen_flags (s : State) (v : BitVec 16) : (s.withTokenLen v).flags = s.flags := rfl
@[simp] theorem withTokenLen_frame (s : State) (v : BitVec 16) : (s.withTokenLen v).frame = s.frame := rfl
@[simp] theorem withTokenLen_token (s : State) (v : BitVec 16) : (s.withTokenLen v).token = s.token := rfl
@[simp] theorem withTokenLen_tokenLen (s : State) (v : BitVec 16) : (s.withTokenLen v).tokenLen = v := rfl
@[simp] theorem withTokenLen_status (s : State) (v : BitVec 16) : (s.withTokenLen v).status = s.status := rfl
@[simp] theorem withTokenLen_config (s : State) (v : BitVec 16) : (s.withTokenLen v).config = s.config := rfl
@[simp] theorem withTokenLen_resetAsserted (s : State) (v : BitVec 16) : (s.withTokenLen v).resetAsserted = s.resetAsserted := rfl
@[simp] theorem withTokenLen_pending (s : State) (v : BitVec 16) : (s.withTokenLen v).pending = s.pending := rfl
@[simp] theorem withTokenLen_result (s : State) (v : BitVec 16) : (s.withTokenLen v).result = s.result := rfl

/-! `withStatus`. -/

@[simp] theorem withStatus_field (s : State) (v : Status) : (s.withStatus v).field = s.field := rfl
@[simp] theorem withStatus_flags (s : State) (v : Status) : (s.withStatus v).flags = s.flags := rfl
@[simp] theorem withStatus_frame (s : State) (v : Status) : (s.withStatus v).frame = s.frame := rfl
@[simp] theorem withStatus_token (s : State) (v : Status) : (s.withStatus v).token = s.token := rfl
@[simp] theorem withStatus_tokenLen (s : State) (v : Status) : (s.withStatus v).tokenLen = s.tokenLen := rfl
@[simp] theorem withStatus_status (s : State) (v : Status) : (s.withStatus v).status = v := rfl
@[simp] theorem withStatus_config (s : State) (v : Status) : (s.withStatus v).config = s.config := rfl
@[simp] theorem withStatus_resetAsserted (s : State) (v : Status) : (s.withStatus v).resetAsserted = s.resetAsserted := rfl
@[simp] theorem withStatus_pending (s : State) (v : Status) : (s.withStatus v).pending = s.pending := rfl
@[simp] theorem withStatus_result (s : State) (v : Status) : (s.withStatus v).result = s.result := rfl

/-! `withPending`. -/

@[simp] theorem withPending_field (s : State) (v : List HostAction) : (s.withPending v).field = s.field := rfl
@[simp] theorem withPending_flags (s : State) (v : List HostAction) : (s.withPending v).flags = s.flags := rfl
@[simp] theorem withPending_frame (s : State) (v : List HostAction) : (s.withPending v).frame = s.frame := rfl
@[simp] theorem withPending_token (s : State) (v : List HostAction) : (s.withPending v).token = s.token := rfl
@[simp] theorem withPending_tokenLen (s : State) (v : List HostAction) : (s.withPending v).tokenLen = s.tokenLen := rfl
@[simp] theorem withPending_status (s : State) (v : List HostAction) : (s.withPending v).status = s.status := rfl
@[simp] theorem withPending_config (s : State) (v : List HostAction) : (s.withPending v).config = s.config := rfl
@[simp] theorem withPending_resetAsserted (s : State) (v : List HostAction) : (s.withPending v).resetAsserted = s.resetAsserted := rfl
@[simp] theorem withPending_pending (s : State) (v : List HostAction) : (s.withPending v).pending = v := rfl
@[simp] theorem withPending_result (s : State) (v : List HostAction) : (s.withPending v).result = s.result := rfl

/-! `respond`. -/

@[simp] theorem respond_field (s : State) (v : BusResult) : (s.respond v).field = s.field := rfl
@[simp] theorem respond_flags (s : State) (v : BusResult) : (s.respond v).flags = s.flags := rfl
@[simp] theorem respond_frame (s : State) (v : BusResult) : (s.respond v).frame = s.frame := rfl
@[simp] theorem respond_token (s : State) (v : BusResult) : (s.respond v).token = s.token := rfl
@[simp] theorem respond_tokenLen (s : State) (v : BusResult) : (s.respond v).tokenLen = s.tokenLen := rfl
@[simp] theorem respond_status (s : State) (v : BusResult) : (s.respond v).status = s.status := rfl
@[simp] theorem respond_config (s : State) (v : BusResult) : (s.respond v).config = s.config := rfl
@[simp] theorem respond_resetAsserted (s : State) (v : BusResult) : (s.respond v).resetAsserted = s.resetAsserted := rfl
@[simp] theorem respond_pending (s : State) (v : BusResult) : (s.respond v).pending = s.pending := rfl
@[simp] theorem respond_result (s : State) (v : BusResult) : (s.respond v).result = some v := rfl

/-! `complete`. -/

@[simp] theorem complete_field (s : State) : (s.complete).field = s.field := rfl
@[simp] theorem complete_flags (s : State) : (s.complete).flags = s.flags := rfl
@[simp] theorem complete_frame (s : State) : (s.complete).frame = s.frame := rfl
@[simp] theorem complete_token (s : State) : (s.complete).token = s.token := rfl
@[simp] theorem complete_tokenLen (s : State) : (s.complete).tokenLen = s.tokenLen := rfl
@[simp] theorem complete_status (s : State) : (s.complete).status = Status.ok := rfl
@[simp] theorem complete_config (s : State) : (s.complete).config = s.config := rfl
@[simp] theorem complete_resetAsserted (s : State) : (s.complete).resetAsserted = s.resetAsserted := rfl
@[simp] theorem complete_pending (s : State) : (s.complete).pending = s.pending := rfl
@[simp] theorem complete_result (s : State) : (s.complete).result = s.result := rfl

/-! `raise`. -/

@[simp] theorem raise_field (s : State) (v : CommandError) : (s.raise v).field = s.field := rfl
@[simp] theorem raise_flags (s : State) (v : CommandError) : (s.raise v).flags = s.flags := rfl
@[simp] theorem raise_frame (s : State) (v : CommandError) : (s.raise v).frame = s.frame := rfl
@[simp] theorem raise_token (s : State) (v : CommandError) : (s.raise v).token = s.token := rfl
@[simp] theorem raise_tokenLen (s : State) (v : CommandError) : (s.raise v).tokenLen = s.tokenLen := rfl
@[simp] theorem raise_status (s : State) (v : CommandError) : (s.raise v).status = v.status := rfl
@[simp] theorem raise_config (s : State) (v : CommandError) : (s.raise v).config = s.config := rfl
@[simp] theorem raise_resetAsserted (s : State) (v : CommandError) : (s.raise v).resetAsserted = s.resetAsserted := rfl
@[simp] theorem raise_pending (s : State) (v : CommandError) : (s.raise v).pending = s.pending := rfl
@[simp] theorem raise_result (s : State) (v : CommandError) : (s.raise v).result = s.result := rfl

/-! `writePackedFrame`. -/

@[simp] theorem writePackedFrame_field (s : State) : (s.writePackedFrame).field = s.field := rfl
@[simp] theorem writePackedFrame_flags (s : State) : (s.writePackedFrame).flags = s.flags := rfl
@[simp] theorem writePackedFrame_frame (s : State) : (s.writePackedFrame).frame = packFrame s.field s.flags := rfl
@[simp] theorem writePackedFrame_token (s : State) : (s.writePackedFrame).token = s.token := rfl
@[simp] theorem writePackedFrame_tokenLen (s : State) : (s.writePackedFrame).tokenLen = s.tokenLen := rfl
@[simp] theorem writePackedFrame_status (s : State) : (s.writePackedFrame).status = s.status := rfl
@[simp] theorem writePackedFrame_config (s : State) : (s.writePackedFrame).config = s.config := rfl
@[simp] theorem writePackedFrame_resetAsserted (s : State) : (s.writePackedFrame).resetAsserted = s.resetAsserted := rfl
@[simp] theorem writePackedFrame_pending (s : State) : (s.writePackedFrame).pending = s.pending := rfl
@[simp] theorem writePackedFrame_result (s : State) : (s.writePackedFrame).result = s.result := rfl

/-! `writeToken`. -/

@[simp] theorem writeToken_field (s : State) : (s.writeToken).field = s.field := rfl
@[simp] theorem writeToken_flags (s : State) : (s.writeToken).flags = s.flags := rfl
@[simp] theorem writeToken_frame (s : State) : (s.writeToken).frame = s.frame := rfl
@[simp] theorem writeToken_token (s : State) : (s.writeToken).token = tokenBuffer s.frame := rfl
@[simp] theorem writeToken_tokenLen (s : State) : (s.writeToken).tokenLen = 38#16 := rfl
@[simp] theorem writeToken_status (s : State) : (s.writeToken).status = s.status := rfl
@[simp] theorem writeToken_config (s : State) : (s.writeToken).config = s.config := rfl
@[simp] theorem writeToken_resetAsserted (s : State) : (s.writeToken).resetAsserted = s.resetAsserted := rfl
@[simp] theorem writeToken_pending (s : State) : (s.writeToken).pending = s.pending := rfl
@[simp] theorem writeToken_result (s : State) : (s.writeToken).result = s.result := rfl

/-! `writeDecodedFrame`. -/

@[simp] theorem writeDecodedFrame_field (s : State) : (s.writeDecodedFrame).field = s.field := rfl
@[simp] theorem writeDecodedFrame_flags (s : State) : (s.writeDecodedFrame).flags = s.flags := rfl
@[simp] theorem writeDecodedFrame_frame (s : State) : (s.writeDecodedFrame).frame = frm s.token := rfl
@[simp] theorem writeDecodedFrame_token (s : State) : (s.writeDecodedFrame).token = s.token := rfl
@[simp] theorem writeDecodedFrame_tokenLen (s : State) : (s.writeDecodedFrame).tokenLen = s.tokenLen := rfl
@[simp] theorem writeDecodedFrame_status (s : State) : (s.writeDecodedFrame).status = s.status := rfl
@[simp] theorem writeDecodedFrame_config (s : State) : (s.writeDecodedFrame).config = s.config := rfl
@[simp] theorem writeDecodedFrame_resetAsserted (s : State) : (s.writeDecodedFrame).resetAsserted = s.resetAsserted := rfl
@[simp] theorem writeDecodedFrame_pending (s : State) : (s.writeDecodedFrame).pending = s.pending := rfl
@[simp] theorem writeDecodedFrame_result (s : State) : (s.writeDecodedFrame).result = s.result := rfl

/-! `writeUnpacked`. -/

@[simp] theorem writeUnpacked_field (s : State) : (s.writeUnpacked).field = unpackFields s.frame := rfl
@[simp] theorem writeUnpacked_flags (s : State) : (s.writeUnpacked).flags = unpackFlags s.frame := rfl
@[simp] theorem writeUnpacked_frame (s : State) : (s.writeUnpacked).frame = s.frame := rfl
@[simp] theorem writeUnpacked_token (s : State) : (s.writeUnpacked).token = s.token := rfl
@[simp] theorem writeUnpacked_tokenLen (s : State) : (s.writeUnpacked).tokenLen = s.tokenLen := rfl
@[simp] theorem writeUnpacked_status (s : State) : (s.writeUnpacked).status = s.status := rfl
@[simp] theorem writeUnpacked_config (s : State) : (s.writeUnpacked).config = s.config := rfl
@[simp] theorem writeUnpacked_resetAsserted (s : State) : (s.writeUnpacked).resetAsserted = s.resetAsserted := rfl
@[simp] theorem writeUnpacked_pending (s : State) : (s.writeUnpacked).pending = s.pending := rfl
@[simp] theorem writeUnpacked_result (s : State) : (s.writeUnpacked).result = s.result := rfl

/-! `driveReset`. -/

@[simp] theorem driveReset_field (s : State) (v : Bool) : (s.driveReset v).field = Vector.replicate 11 0#32 := rfl
@[simp] theorem driveReset_flags (s : State) (v : Bool) : (s.driveReset v).flags = 0#2 := rfl
@[simp] theorem driveReset_frame (s : State) (v : Bool) : (s.driveReset v).frame = Vector.replicate 28 0#8 := rfl
@[simp] theorem driveReset_token (s : State) (v : Bool) : (s.driveReset v).token = Vector.replicate 64 0#8 := rfl
@[simp] theorem driveReset_tokenLen (s : State) (v : Bool) : (s.driveReset v).tokenLen = 0#16 := rfl
@[simp] theorem driveReset_status (s : State) (v : Bool) : (s.driveReset v).status = ⟨0#3, 0#4, 0#11⟩ := rfl
@[simp] theorem driveReset_config (s : State) (v : Bool) : (s.driveReset v).config = s.config := rfl
@[simp] theorem driveReset_resetAsserted (s : State) (v : Bool) : (s.driveReset v).resetAsserted = v := rfl
@[simp] theorem driveReset_pending (s : State) (v : Bool) : (s.driveReset v).pending = s.pending := rfl
@[simp] theorem driveReset_result (s : State) (v : Bool) : (s.driveReset v).result = s.result := rfl

end Sys2Proof.Machine.State
end

