-- ==== Sys2Proof/Laws/Step.lean ====
section
/-! SUPPORT. What a command, a bus transaction, a host action and a step can do, once each. -/

namespace Sys2Proof.Machine

/-- What PACK can do: a range error, or the frame. -/
theorem execPack_cases {s t : State} (h : execPack s = .next t) :
    (rangeMask s.field ≠ 0#11 ∧ t = s.raise (.range (rangeMask s.field))) ∨
    (rangeMask s.field = 0#11 ∧ t = s.writePackedFrame.complete) := by
  unfold execPack at h
  simp only at h
  split at h <;> injection h with h
  · exact .inl ⟨‹_›, h.symm⟩
  · exact .inr ⟨not_not.mp ‹_›, h.symm⟩

/-- What ENCODE can do: a range error, or the frame and its token. -/
theorem execEncode_cases {s t : State} (h : execEncode s = .next t) :
    (rangeMask s.field ≠ 0#11 ∧ t = s.raise (.range (rangeMask s.field))) ∨
    (rangeMask s.field = 0#11 ∧ t = s.writePackedFrame.writeToken.complete) := by
  unfold execEncode at h
  simp only at h
  split at h <;> injection h with h
  · exact .inl ⟨‹_›, h.symm⟩
  · exact .inr ⟨not_not.mp ‹_›, h.symm⟩

/-- What B64DEC can do: a format error, or the frame. -/
theorem execB64dec_cases {s t : State} (h : execB64dec s = .next t) :
    (s.tokenCause ≠ .none ∧ t = s.raise (.format s.tokenCause)) ∨
    (s.tokenCause = .none ∧ t = s.writeDecodedFrame.complete) := by
  unfold execB64dec at h
  simp only at h
  split at h <;> injection h with h
  · exact .inl ⟨‹_›, h.symm⟩
  · exact .inr ⟨not_not.mp ‹_›, h.symm⟩

/-- What DECODE can do: a format error, or the frame, its tick counts and its flags. -/
theorem execDecode_cases {s t : State} (h : execDecode s = .next t) :
    (s.tokenCause ≠ .none ∧ t = s.raise (.format s.tokenCause)) ∨
    (s.tokenCause = .none ∧ t = s.writeDecodedFrame.writeUnpacked.complete) := by
  unfold execDecode at h
  simp only at h
  split at h <;> injection h with h
  · exact .inl ⟨‹_›, h.symm⟩
  · exact .inr ⟨not_not.mp ‹_›, h.symm⟩

/-- Every command has a next state. -/
theorem exec_total (i : Instr) (s : State) : ∃ t, exec i s = .next t := by
  cases i <;> simp only [exec, execPack, execUnpack, execB64enc, execB64dec, execEncode, execDecode]
  all_goals first | exact ⟨_, rfl⟩ | (split <;> exact ⟨_, rfl⟩)

/-- Every write to CMD has a next state. -/
theorem execute_total (v : Word) (s : State) : ∃ t, execute v s = .next t := by
  unfold execute
  split
  · exact exec_total _ s
  · exact ⟨_, rfl⟩

/-- What a bus write can do: BUSERR, a command, or a store. -/
theorem busWrite_cases {s t : State} {off : Nat} {v : Word} (h : busWrite s off v = .next t) :
    (regAt off = none ∧ t = s.respond (.write .busErr)) ∨
    (∃ u, off = 0 ∧ execute v s = .next u ∧ t = u.respond (.write .ok)) ∨
    (∃ r, r ≠ .cmd ∧ off = r.offset ∧ t = (writeReg s r v).respond (.write .ok)) := by
  unfold busWrite at h
  split at h
  · rename_i hr; injection h with h; exact .inl ⟨hr, h.symm⟩
  · rename_i hr
    obtain ⟨u, hu⟩ := execute_total v s
    rw [hu] at h
    injection h with h
    exact .inr (.inl ⟨u, eq_offset_of_regAt hr, hu, h.symm⟩)
  · rename_i r hne hr
    injection h with h
    exact .inr (.inr ⟨r, hne, eq_offset_of_regAt hr, h.symm⟩)

/-- Every bus write has a next state. -/
theorem busWrite_total (s : State) (off : Nat) (v : Word) : ∃ t, busWrite s off v = .next t := by
  unfold busWrite
  split
  · exact ⟨_, rfl⟩
  · obtain ⟨u, hu⟩ := execute_total v s
    rw [hu]; exact ⟨_, rfl⟩
  · exact ⟨_, rfl⟩

/-- What one host action can do when it has a next state. -/
theorem runAction_cases {s t : State} {a : HostAction} (h : runAction s a = .next t) :
    (∃ r, t = s.respond r) ∨
    (∃ off v, s.resetAsserted = false ∧ busWrite s off v = .next t) ∨
    (∃ b, t = s.driveReset b) := by
  cases a with
  | busRead addr =>
    simp only [runAction] at h
    split at h
    · injection h with h; exact .inl ⟨_, h.symm⟩
    · split at h <;> cases h; exact .inl ⟨_, rfl⟩
  | busWrite addr v =>
    simp only [runAction, windowWrite] at h
    split at h
    · injection h with h; exact .inl ⟨_, h.symm⟩
    · split at h
      · cases h
      · rename_i hr; exact .inr (.inl ⟨_, _, Bool.eq_false_iff.mpr hr, h⟩)
  | presentTick i ticks =>
    cases ticks with
    | none => cases h
    | some n =>
      simp only [runAction, windowWrite] at h
      split at h
      · cases h
      · split at h
        · cases h
        · rename_i hr; exact .inr (.inl ⟨_, _, Bool.eq_false_iff.mpr hr, h⟩)
  | assertReset => injection h with h; exact .inr (.inr ⟨true, h.symm⟩)
  | releaseReset => injection h with h; exact .inr (.inr ⟨false, h.symm⟩)

/-- What a step can do when it has a next state: nothing is pending and nothing changes, or the oldest action ran. -/
theorem step_cases {s t : State} (h : step s = .next t) :
    (s.pending = [] ∧ t = s) ∨
    (∃ a rest, s.pending = a :: rest ∧ runAction (s.withPending rest) a = .next t) := by
  unfold step runPending at h
  split at h
  · rename_i hp; injection h with h; exact .inl ⟨hp, h.symm⟩
  · rename_i a rest hp; exact .inr ⟨a, rest, hp, h⟩

/-- A step with a pending action runs it. -/
theorem step_of_pending {s : State} {a : HostAction} {rest : List HostAction} (h : s.pending = a :: rest) :
    step s = runAction (s.withPending rest) a := by
  unfold step runPending
  rw [h]

end Sys2Proof.Machine
end

