-- ==== Sys2Proof/Tests/Slice0.lean ====
section
/-! SUPPORT. Small tests on fixed values, expected results from the spec's examples and vectors (95_test_vectors.md), and
a witness for the hypotheses of every statement. -/

namespace Sys2Proof.Tests

open Sys2Proof Sys2Proof.Machine

/-! ## Well-formedness and decoding -/

theorem test_wellFormed_refuses_reserved_bits : commandWordWellFormed 0x00000011#32 = false := by decide
theorem test_wellFormed_refuses_op_zero : commandWordWellFormed 0x00000000#32 = false := by decide
theorem test_wellFormed_refuses_op_seven : commandWordWellFormed 0x00000007#32 = false := by decide
theorem test_wellFormed_refuses_negative_tick : (HostAction.presentTick 0 (some (-1))).wellFormed = false := by decide
theorem test_wellFormed_refuses_missing_tick : (HostAction.presentTick 0 none).wellFormed = false := by decide
theorem test_wellFormed_accepts_command_word : commandWordWellFormed 0x00000006#32 = true := by decide

theorem test_decode_pack : decode 0b00000000000000000000000000000001#32 = .ok .pack := by decide
theorem test_decode_unpack : decode 0b00000000000000000000000000000010#32 = .ok .unpack := by decide
theorem test_decode_b64enc : decode 0b00000000000000000000000000000011#32 = .ok .b64enc := by decide
theorem test_decode_b64dec : decode 0b00000000000000000000000000000100#32 = .ok .b64dec := by decide
theorem test_decode_encode : decode 0b00000000000000000000000000000101#32 = .ok .encode := by decide
theorem test_decode_decode : decode 0b00000000000000000000000000000110#32 = .ok .decode := by decide
theorem test_decode_rejects_reserved_op : decode 0x0000000F#32 = .error .reservedOp := by decide
theorem test_decode_rejects_reserved_bits : decode 0x80000005#32 = .error .reservedBits := by decide
theorem test_decodeTableWord : decodeTableWord 32 6 = some .decode ∧ decodeTableWord 32 7 = none := by decide

/-! ## The scenario of 95_test_vectors.md W1 and section 2.3 -/

/-- FIELD of the scenario. -/
def scenFields : Vector Word 11 := #v[100000, 80000, 25000, 12500, 7500, 900, 600, 100, 300, 3750, 350]

/-- FRAME of the scenario, as the words of program P1. -/
def scenFrameWords : List Word :=
  [0x0186A001, 0x38800061, 0xA80030D4, 0x001D4C03, 0x84025800, 0x64012C0E, 0xA6015E01]

/-- The first nine TOKEN words of the scenario (section 2.3). -/
def scenTokenWords : List Word :=
  [0x41596167, 0x41546941, 0x4147476F, 0x41444455, 0x4142314D, 0x41345143, 0x5741426B, 0x4153774F, 0x70674665]

/-- A buffer from its words, big-endian. -/
def fromWords {n : Nat} (ws : List Word) : Vector Byte n :=
  tabulate fun k => byteLane (ws.getD (k.val / 4) 0#32) (3 - k.val % 4)

/-- The reset state with the scenario's tick counts and FLAGS = 01. -/
def scen : State := { State.reset with field := scenFields, flags := 0b01#2 }

/-- The reset state with the scenario's frame. -/
def scenFrame : State := { State.reset with frame := fromWords scenFrameWords }

/-- The reset state with the scenario's token in which the word of characters 36 to 39 is `last`, a TOKEN_LEN, and a
P_STRICT_PAD_BITS. -/
def scenToken (last : Word) (len : BitVec 16) (strict : Bool) : State :=
  { State.resetFor ⟨strict, 0⟩ with token := fromWords (scenTokenWords ++ [last]), tokenLen := len }

/-- The reset state with FIELD[0] one above its maximum. -/
def tooWide : State := { State.reset with field := (Vector.replicate 11 0#32).set 0 16777216#32 }

/-- A property of the next state; false where there is none. -/
def nextIs (o : Host.Outcome State Fault Refusal) (p : State → Bool) : Bool :=
  match o with
  | .next t => p t
  | .fault _ => false
  | .refused _ => false

/-- V-P1. -/
theorem test_pack_scenario : nextIs (exec .pack scen) fun t =>
    t.frame == fromWords scenFrameWords && t.status.word == 0#32 := by decide +kernel
/-- V-P8: a narrow field at a value that fits 24 bits. -/
theorem test_pack_rejects_narrow :
    nextIs (exec .pack { State.reset with field := (Vector.replicate 11 0#32).set 10 16777215#32 })
      fun t => t.status.word == 0x04000001#32 := by decide +kernel
/-- V-E1. -/
theorem test_b64enc_scenario : nextIs (exec .b64enc scenFrame) fun t =>
    t.token == fromWords (scenTokenWords ++ [0x41510000]) && t.tokenLen == 38#16 := by decide +kernel
/-- V-E5: the frame FB EF BE × 9, F8 has the token of 37 `-` and an `A`. -/
theorem test_b64enc_index_62 :
    nextIs (exec .b64enc { State.reset with frame := (fromWords [0xFBEFBEFB, 0xEFBEFBEF, 0xBEFBEFBE, 0xFBEFBEFB,
      0xEFBEFBEF, 0xBEFBEFBE, 0xFBEFBEF8]) })
      fun t => t.token == fromWords (List.replicate 9 0x2D2D2D2D ++ [0x2D410000]) := by decide +kernel
/-- V-N1. -/
theorem test_encode_scenario : nextIs (exec .encode scen) fun t =>
    t.frame == fromWords scenFrameWords && t.token == fromWords (scenTokenWords ++ [0x41510000]) := by decide +kernel
/-- V-N2: a range error leaves everything but STATUS. -/
theorem test_encode_rejects : exec .encode tooWide = .next { tooWide with status := ⟨1#3, 0#4, 1#11⟩ } := by rfl
/-- V-D3: the padded token. -/
theorem test_b64dec_padded : nextIs (exec .b64dec (scenToken 0x41513D3D 40 false)) fun t =>
    t.frame == fromWords scenFrameWords && t.status.word == 0#32 := by decide +kernel
/-- V-D10: strict pad bits. -/
theorem test_b64dec_strict : nextIs (exec .b64dec (scenToken 0x41520000 38 true)) fun t =>
    t.status.word == 0x00000042#32 := by decide +kernel
/-- V-U1. -/
theorem test_unpack_scenario : nextIs (exec .unpack scenFrame) fun t =>
    t.field == scenFields && t.flags == 0b01#2 := by decide +kernel
/-- V-U4: the reserved flag bits are ignored. -/
theorem test_unpack_reserved_bits :
    nextIs (exec .unpack { scenFrame with frame := scenFrame.frame.set 27 0xFD#8 })
      fun t => t.flags == 0b01#2 && t.status.word == 0#32 := by decide +kernel
/-- V-X1. -/
theorem test_decode_scenario : nextIs (exec .decode (scenToken 0x41510000 38 false)) fun t =>
    t.field == scenFields && t.flags == 0b01#2 && t.frame == fromWords scenFrameWords := by decide +kernel
/-- V-X2: a wrong length. -/
theorem test_decode_rejects : nextIs (exec .decode (scenToken 0x41510000 36 false)) fun t =>
    t.status.word == 0x00000012#32 && t.field == Vector.replicate 11 0#32 := by decide +kernel

/-! ## The source's decoding algorithm, steps and bus -/

/-- V-D7: 39 data characters decode to 29 bytes, which RefDecode refuses. -/
theorem test_refDecode_rejects_39_data :
    refDecode false ((scenToken 0x41514100 39 false).token.toList.take 39) = none := by decide +kernel
/-- V-D9: pad bits 0001 are discarded when P_STRICT_PAD_BITS = 0. -/
theorem test_refDecode_discards_pad_bits :
    refDecode false ((scenToken 0x41520000 38 false).token.toList.take 38) =
      some (fromWords (n := 28) scenFrameWords).toList := by decide +kernel

/-- The first step after reset runs a PACK placed as the next command. -/
theorem test_step_pack : nextIs (step (State.reset.withFetchWord 32 1)) fun t =>
    t == { State.reset with result := some (.write .ok) } := by decide +kernel
/-- An illegal word writes STATUS = 3 (V-I2). -/
theorem test_step_illegal : nextIs (step (State.reset.withFetchWord 32 7)) fun t => t.status.word == 3#32 := by decide +kernel

/-- A state with one pending action on a configuration whose window starts at 0x300. -/
def withAction (a : HostAction) : State :=
  { State.resetFor ⟨false, 3⟩ with field := scenFields, flags := 0b10#2, tokenLen := 0x26#16, pending := [a] }

/-- What one step answers on the bus. -/
def answer (a : HostAction) : Option BusResult :=
  match step (withAction a) with
  | .next t => t.result
  | .fault _ => none
  | .refused _ => none

theorem test_read_first_field : answer (.busRead 0x310) = some (.read .ok 100000#32) := by decide +kernel
theorem test_read_last_field : answer (.busRead 0x338) = some (.read .ok 350#32) := by decide +kernel
theorem test_read_flags : answer (.busRead 0x308) = some (.read .ok 2#32) := by decide +kernel
theorem test_read_tokenLen : answer (.busRead 0x360) = some (.read .ok 0x26#32) := by decide +kernel
/-- V-B7 and V-B8: unmapped offsets. -/
theorem test_read_unmapped : answer (.busRead 0x30C) = some (.read .busErr 0#32) ∧
    answer (.busRead 0x3C0) = some (.read .busErr 0#32) := by decide +kernel
/-- V-B6: a misaligned write. -/
theorem test_write_misaligned : answer (.busWrite 0x312 5#32) = some (.write .busErr) := by decide +kernel
theorem test_outside_window : answer (.busRead 0x400) = some .silent ∧ answer (.busRead 0x2FF) = some .silent := by
  decide +kernel
/-- V-B10 and V-B11: the first FRAME word and the last TOKEN word. -/
theorem test_write_words :
    nextIs (step (withAction (.busWrite 0x340 0x0186A001#32))) (fun t => t.frame[1] == 0x86#8 && t.frame[3] == 0x01#8) ∧
    nextIs (step (withAction (.busWrite 0x3BC 0x41424344#32))) (fun t => t.token[60] == 0x41#8 && t.token[63] == 0x44#8)
    := by decide +kernel
/-- The source's boundary 6.5535 and 6.5536 inches, and a value that is no exact tie (95_test_vectors.md W1, W3). -/
theorem test_hostTicks : roundToNearest (65535 * 10000) 10000 = 65535 ∧ roundToNearest (35000000001 * 10000) 1000000000000 = 350
    ∧ roundToNearest 7 4 = 2 := by decide +kernel

/-! ## Witnesses: a concrete state and operands that meet all the hypotheses of each statement, clause by clause -/

/-- A scenario state on a window at 0x300 with pending actions and the reset input at a level. -/
def withPending (reset : Bool) (as : List HostAction) : State :=
  { withAction .releaseReset with resetAsserted := reset, pending := as }

theorem legal_after_ok (strict : Bool) : Status.ok.Legal strict := by
  constructor <;> simp [Status.ok]

theorem witness_ResetGivesEveryRegisterItsValue :
    (withPending false [.assertReset]).pending = (if true then HostAction.assertReset else .releaseReset) :: [] ∧
    (withPending true [.releaseReset]).pending = (if false then HostAction.assertReset else .releaseReset) :: [] := by
  decide

theorem witness_StepKeepsInvariant :
    (withPending false [.busWrite 0x300 6#32]).Inv ∧
    ∃ t, step (withPending false [.busWrite 0x300 6#32]) = .next t ∧ t.status.word = 0x00000022#32 :=
  ⟨⟨legal_after_ok _, fun h => nomatch h⟩, _, rfl, by decide +kernel⟩

theorem witness_StepKeepsInvariant_in_reset :
    ({ State.reset with resetAsserted := true, pending := [.releaseReset] } : State).Inv ∧
    ∃ t, step { State.reset with resetAsserted := true, pending := [.releaseReset] } = .next t :=
  ⟨⟨legal_after_ok _, fun _ => rfl⟩, _, rfl⟩

theorem witness_StepKeepsConfiguration : ∃ t, step (withPending false [.assertReset]) = .next t := ⟨_, rfl⟩

theorem witness_CmdWriteRunsTheDecodedCommand :
    (withPending false [.busWrite 0x300 1#32]).resetAsserted = false ∧
    (withPending false [.busWrite 0x300 1#32]).pending =
      .busWrite (withPending false [.busWrite 0x300 1#32]).config.base 1#32 :: [] ∧
    decode 1#32 = .ok .pack ∧ Instr.wellFormed .pack = true := by decide

theorem witness_IllegalWordWritesOnlyStatus :
    (withPending false [.busWrite 0x300 7#32]).resetAsserted = false ∧
    (withPending false [.busWrite 0x300 7#32]).pending =
      .busWrite (withPending false [.busWrite 0x300 7#32]).config.base 7#32 :: [] ∧
    IllegalWord 7#32 ∧ IllegalWord 0#32 ∧ IllegalWord 0x00000011#32 := by
  unfold IllegalWord; decide

/-- Both clauses of PACK and ENCODE, at the field maxima and one above. -/
theorem witness_PackPacksOrRejects :
    InRange scen.field ∧ InRange (#v[16777215, 0, 0, 0, 16777215, 65535, 0, 0, 0, 0, 65535] : Vector Word 11) ∧
    ¬ InRange tooWide.field := by
  unfold InRange MaxOf; decide

theorem witness_EncodeEncodesOrRejects : InRange scen.field ∧ ¬ InRange tooWide.field := by
  unfold InRange MaxOf; decide

/-- The valid clause of B64DEC and DECODE, at the three lengths. -/
theorem witness_valid_tokens :
    CauseApplies (scenToken 0x41510000 38 true) .none ∧ CauseApplies (scenToken 0x41513D00 39 true) .none ∧
    CauseApplies (scenToken 0x41513D3D 40 true) .none := by
  unfold CauseApplies LengthOk DataOk PadOk PadBitsOk; decide +kernel

/-- Each cause of B64DEC and DECODE, at a boundary. -/
theorem witness_causes :
    CauseApplies (scenToken 0x41510000 37 false) .length ∧ CauseApplies (scenToken 0x41510000 41 false) .length ∧
    CauseApplies (scenToken 0x413D0000 38 false) .badDataChar ∧
    CauseApplies (scenToken 0x41514100 39 false) .badPadChar ∧
    CauseApplies (scenToken 0x41513D41 40 false) .badPadChar ∧
    CauseApplies (scenToken 0x41520000 38 true) .padBits := by
  unfold CauseApplies LengthOk DataOk PadOk PadBitsOk; decide +kernel

theorem witness_B64decDecodesOrRejects :
    CauseApplies (scenToken 0x41510000 38 false) .none ∧ CauseApplies (scenToken 0x41520000 38 true) .padBits ∧
    (FmtCause.padBits, 4#4) ∈ [(FmtCause.length, 1#4), (.badDataChar, 2#4), (.badPadChar, 3#4), (.padBits, 4#4)] :=
  ⟨by unfold CauseApplies LengthOk DataOk PadOk PadBitsOk; decide +kernel, witness_causes.2.2.2.2.2, by decide⟩

theorem witness_DecodeDecodesOrRejects :
    CauseApplies (scenToken 0x41510000 38 false) .none ∧ CauseApplies (scenToken 0x41514100 39 false) .badPadChar ∧
    (FmtCause.badPadChar, 3#4) ∈ [(FmtCause.length, 1#4), (.badDataChar, 2#4), (.badPadChar, 3#4), (.padBits, 4#4)] :=
  ⟨witness_B64decDecodesOrRejects.1, witness_causes.2.2.2.1, by decide⟩

theorem witness_CommandsWriteOnlyTheirRegisters :
    (∃ t, exec .pack scen = .next t) ∧ ¬ writesOffset .pack 0x03C ∧ ¬ writesOffset .pack 0x05C :=
  ⟨⟨_, rfl⟩, by unfold writesOffset; decide, by unfold writesOffset; decide⟩

theorem witness_CommandsReadOnlyTheirRegisters :
    ReadsAgree scen { scen with tokenLen := 7#16, frame := Vector.replicate 28 0xFF#8 } .pack ∧
    (∃ s', exec .pack scen = .next s' ∧ s'.status.err = 0#3) ∧
    ∃ t', exec .pack { scen with tokenLen := 7#16, frame := Vector.replicate 28 0xFF#8 } = .next t' :=
  ⟨⟨rfl, rfl⟩, ⟨_, rfl, by decide⟩, ⟨_, rfl⟩⟩

theorem witness_RepeatedCommandChangesNothing : ∃ t, execute 5#32 scen = .next t ∧ t ≠ scen :=
  ⟨_, rfl, by decide +kernel⟩

theorem witness_ErrorsReplaceOnlyStatus : ∃ t, execute 5#32 tooWide = .next t ∧ t.status.err ≠ 0#3 :=
  ⟨_, rfl, by decide⟩

theorem witness_RangeMaskMarksEveryField :
    (∃ t, execute 1#32 tooWide = .next t ∧ t.status.err = 1#3) ∧
    ∃ t, execute 4#32 tooWide = .next t ∧ t.status.err = 2#3 := ⟨⟨_, rfl, by decide⟩, ⟨_, rfl, by decide⟩⟩

theorem witness_StatusWordOfEachOutcome :
    (FmtCause.length, 1#32) ∈ [(FmtCause.length, 1#32), (.badDataChar, 2#32), (.badPadChar, 3#32), (.padBits, 4#32)] := by
  decide

theorem witness_FieldLimitsAreExact :
    InRange scen.field ∧ (65535#32).toNat ≤ MaxOf 5 ∧ ¬ (65536#32).toNat ≤ MaxOf 5 ∧ (16777215#32).toNat ≤ MaxOf 4 ∧
    ¬ (16777216#32).toNat ≤ MaxOf 4 := by
  unfold InRange MaxOf; decide

theorem witness_FlagsChangeOnlyTheLastByte :
    InRange scen.field ∧ (∃ s', exec .pack scen = .next s') ∧
    ∃ t', exec .pack { scen with flags := 0b10#2 } = .next t' ∧ scen.field = { scen with flags := 0b10#2 }.field :=
  ⟨witness_PackPacksOrRejects.1, ⟨_, rfl⟩, ⟨_, rfl, rfl⟩⟩

theorem witness_FlagsChangeOnlyTheLastByte_same_flags :
    InRange State.reset.field ∧ scen.flags = { State.reset with flags := 0b01#2 }.flags ∧
    ∃ t', exec .pack { State.reset with flags := 0b01#2 } = .next t' :=
  ⟨by unfold InRange MaxOf; decide, rfl, ⟨_, rfl⟩⟩

theorem witness_DifferentFramesGiveDifferentTokens :
    (∃ s', exec .b64enc scenFrame = .next s') ∧ (∃ t', exec .b64enc State.reset = .next t') ∧
    scenFrame.frame ≠ State.reset.frame := ⟨⟨_, rfl⟩, ⟨_, rfl⟩, by decide +kernel⟩

theorem witness_TokenCharactersOfAnEncode : InRange scen.field := witness_PackPacksOrRejects.1

theorem witness_EncodeIsPackThenB64enc :
    (∃ t, exec .pack scen = .next t ∧ t.status.err = 0#3) ∧ ∃ t, exec .pack tooWide = .next t ∧ t.status.err ≠ 0#3 :=
  ⟨⟨_, rfl, by decide⟩, ⟨_, rfl, by decide⟩⟩

theorem witness_DecodeIsB64decThenUnpack :
    (∃ t, exec .b64dec (scenToken 0x41510000 38 true) = .next t ∧ t.status.err = 0#3) ∧
    ∃ t, exec .b64dec State.reset = .next t ∧ t.status.err ≠ 0#3 :=
  ⟨⟨_, rfl, by decide +kernel⟩, ⟨_, rfl, by decide⟩⟩

/-- The characters of a token of at most 64 characters. -/
def charsOf (s : State) : List Byte := s.token.toList.take s.tokenLen.toNat

theorem witness_TokenCheckAcceptsWhatRefDecodeAccepts :
    (charsOf (scenToken 0x41513D00 39 false)).length = (scenToken 0x41513D00 39 false).tokenLen.toNat ∧
    (∀ (k : Nat) (_ : k < 64) (_ : k < (charsOf (scenToken 0x41513D00 39 false)).length),
      (charsOf (scenToken 0x41513D00 39 false))[k] = (scenToken 0x41513D00 39 false).token[k]) ∧
    (scenToken 0x41513D00 39 false).tokenCause = .none := by decide +kernel

theorem witness_TokenCheckAcceptsWhatRefDecodeAccepts_rejected :
    (charsOf (scenToken 0x41514100 39 false)).length = (scenToken 0x41514100 39 false).tokenLen.toNat ∧
    (∀ (k : Nat) (_ : k < 64) (_ : k < (charsOf (scenToken 0x41514100 39 false)).length),
      (charsOf (scenToken 0x41514100 39 false))[k] = (scenToken 0x41514100 39 false).token[k]) ∧
    (scenToken 0x41514100 39 false).tokenCause ≠ .none := by decide +kernel

theorem witness_AcceptedSpellingsOfAFrame : ∀ F, ¬ Spells State.reset F := by
  rintro F ⟨⟨h, -⟩, -⟩
  exact absurd h (by decide)

theorem witness_TokenBytesBeyondTheLengthAreIgnored :
    (∀ (k : Nat) (_ : k < 64), k < (scenToken 0x41510000 38 false).tokenLen.toNat →
      (scenToken 0x41514142 38 false).token[k] = (scenToken 0x41510000 38 false).token[k]) ∧
    (scenToken 0x41514142 38 false).token ≠ (scenToken 0x41510000 38 false).token ∧
    ∃ t, exec .b64dec (scenToken 0x41510000 38 false) = .next t :=
  ⟨by decide +kernel, by decide +kernel, _, rfl⟩

theorem witness_NonAsciiTokensAreRejected :
    38 < (scenToken 0x41518000 39 false).tokenLen.toNat ∧ 0x80 ≤ (scenToken 0x41518000 39 false).token[38].toNat ∧
    (scenToken 0x41518000 39 false).tokenCause = .badPadChar := by decide +kernel

theorem witness_EncoderAndDecoderRoundTrip : InRange scen.field := witness_PackPacksOrRejects.1

theorem witness_DecInvertsEnc :
    (∀ v, (0x3D#8 : Byte) ≠ enc v) ∧ (0x3D#8 : Byte) ≠ 0x2B#8 ∧ (0x3D#8 : Byte) ≠ 0x2F#8 := by decide +kernel

theorem witness_BusReadReturnsTheRegister :
    (withPending false [.busRead 0x338]).resetAsserted = false ∧
    (withPending false [.busRead 0x338]).pending =
      .busRead ((withPending false [.busRead 0x338]).config.base + 0x038) :: [] ∧
    0x038 = 0x010 + 4 * 10 := by decide

theorem witness_BusWriteStoresTheRegister :
    (withPending false [.busWrite 0x3BC 9#32]).resetAsserted = false ∧
    (withPending false [.busWrite 0x3BC 9#32]).pending =
      .busWrite ((withPending false [.busWrite 0x3BC 9#32]).config.base + 0x0BC) 9#32 :: [] ∧
    0x0BC = 0x080 + 4 * 15 := by decide

/-- The offsets at the ends of the clauses of a read and a write: the misaligned, the unmapped, the buffers' words. -/
theorem witness_offsets :
    (0x001 % 4 ≠ 0 ∧ 0x0FF % 4 ≠ 0) ∧ Unmapped 0x00C ∧ Unmapped 0x03C ∧ Unmapped 0x05C ∧ Unmapped 0x064 ∧
    Unmapped 0x07C ∧ Unmapped 0x0C0 ∧ Unmapped 0x0FC ∧ ¬ Unmapped 0x008 ∧ ¬ Unmapped 0x010 ∧ ¬ Unmapped 0x038 ∧
    ¬ Unmapped 0x040 ∧ ¬ Unmapped 0x058 ∧ ¬ Unmapped 0x060 ∧ ¬ Unmapped 0x080 ∧ ¬ Unmapped 0x0BC := by
  unfold Unmapped; omega

theorem witness_AddressesOutsideTheWindowAreSilent :
    (0x100 * (withPending false [.busRead 0x400]).config.basePage + 0x100 ≤ 0x400 ∧
      (withPending false [.busRead 0x400]).pending = .busRead 0x400 :: []) ∧
    0x2FF < 0x100 * (withPending true [.busWrite 0x2FF 0#32]).config.basePage ∧
      (withPending true [.busWrite 0x2FF 0#32]).pending = .busWrite 0x2FF 0#32 :: [] := by decide

theorem witness_AccessDuringResetIsRefused :
    (withPending true [.busRead 0x3FF]).resetAsserted = true ∧
    (withPending true [.busRead 0x3FF]).pending =
      .busRead ((withPending true [.busRead 0x3FF]).config.base + 0xFF) :: [] ∧
    (withPending true [.busWrite 0x300 1#32]).pending =
      .busWrite ((withPending true [.busWrite 0x300 1#32]).config.base + 0) 1#32 :: [] := by decide

/-- The three clauses, with the counts −1, 0 and 2^32. -/
theorem witness_PresentedTickCounts :
    (withPending false [.presentTick 5 none]).resetAsserted = false ∧
    (withPending false [.presentTick 5 (some (-1))]).pending = .presentTick 5 (some (-1)) :: [] ∧ (-1 : Int) < 0 ∧
    (withPending false [.presentTick 5 (some 0)]).pending = .presentTick 5 (some 0) :: [] ∧
    (0 : Int) ≤ 2 ^ 32 ∧ (2 : Int) ^ 32 > MaxOf 5 := by decide

theorem witness_StatusChangesOnlyByCommandOrReset :
    ∃ t, step (withPending false [.busWrite 0x300 0#32]) = .next t ∧
      t.status ≠ (withPending false [.busWrite 0x300 0#32]).status := ⟨_, rfl, by decide⟩

theorem witness_BlockNeverActsByItself : (withPending false []).pending = [] := rfl

theorem witness_LaterActionsDoNotAffectAStep :
    (withPending false [.busWrite 0x300 1#32]).pending ≠ [] ∧
    ∃ t, step (withPending false [.busWrite 0x300 1#32]) = .next t := ⟨by decide, _, rfl⟩

theorem witness_OnlyForbiddenActionsHaveNoStep :
    Forbidden (withPending true [.busRead 0x300]) (.busRead 0x300) ∧
    Forbidden (withPending false []) (.presentTick 0 none) ∧
    ¬ Forbidden (withPending true []) (.busRead 0x400) := by
  unfold Forbidden; decide

end Sys2Proof.Tests
end

/-! # The state: what a command is, what a step keeps, what STATUS holds

Every command has one shape: it may end in an error, which replaces STATUS alone, or it makes its register writes and
completes. `commandError` and `commandWrites` say which error and which writes; `exec_eq` ties them to the model. -/

namespace Sys2Proof.Machine

/-! ## Command words -/

/-- The opcode map takes no OP but a command's own to it (30_encoding.md R61). -/
theorem eq_encodeOp_of_decodeOp {op : BitVec 4} {i : Instr} (h : decodeOp op = some i) : op = encodeOp i := by
  unfold decodeOp at h
  repeat' split at h
  all_goals cases h
  all_goals assumption

/-- A command word is its RSVD field above its OP field (30_encoding.md R60). -/
theorem rsvdField_append_opField (w : Word) : rsvdField w ++ opField w = w := by
  apply BitVec.eq_of_getLsbD_eq
  intro k hk
  rw [BitVec.getLsbD_append]
  split
  · simp [opField, *]
  · simp only [rsvdField, BitVec.getLsbD_extractLsb']
    rw [show 4 + (k - 4) = k by omega]
    simp; omega

/-- A word that decodes to a command is that command's word (30_encoding.md R61, R63). -/
theorem eq_encode_of_decode {w : Word} {i : Instr} (h : decode w = .ok i) : w = encode i := by
  unfold decode at h
  split at h
  · cases h
  · rename_i hrsvd
    split at h <;> cases h
    rename_i hop
    rw [← rsvdField_append_opField w, not_not.mp hrsvd, eq_encodeOp_of_decodeOp hop, encode]

/-! ## The two halves of a command -/

/-- The error a command ends in, if it ends in one (41_encoder.md R100, R106; 42_decoder.md R122, R128). -/
def commandError (i : Instr) (s : State) : Option CommandError :=
  match i with
  | .pack | .encode => if rangeMask s.field = 0#11 then none else some (.range (rangeMask s.field))
  | .b64dec | .decode => if s.tokenCause = .none then none else some (.format s.tokenCause)
  | .unpack | .b64enc => none

/-- The register writes of a command that completes, STATUS aside (20_memory.md R51). -/
def commandWrites (i : Instr) (s : State) : State :=
  match i with
  | .pack => s.writePackedFrame
  | .unpack => s.writeUnpacked
  | .b64enc => s.writeToken
  | .b64dec => s.writeDecodedFrame
  | .encode => s.writePackedFrame.writeToken
  | .decode => s.writeDecodedFrame.writeUnpacked

/-- A command raises its error, or makes its writes and completes. -/
theorem exec_eq (i : Instr) (s : State) :
    exec i s = .next ((commandError i s).elim (commandWrites i s).complete s.raise) := by
  cases i with
  | unpack | b64enc => rfl
  | pack | encode =>
    by_cases hm : rangeMask s.field = 0#11 <;>
      simp [exec, execPack, execEncode, commandError, commandWrites, hm]
  | b64dec | decode =>
    by_cases hc : s.tokenCause = .none <;>
      simp [exec, execB64dec, execDecode, commandError, commandWrites, hc]

/-- A command with an error replaces STATUS alone. -/
theorem exec_of_error {i : Instr} {s : State} {e : CommandError} (h : commandError i s = some e) :
    exec i s = .next (s.raise e) := by simp [exec_eq, h]

/-- A command with no error makes its writes and completes. -/
theorem exec_of_no_error {i : Instr} {s : State} (h : commandError i s = none) :
    exec i s = .next (commandWrites i s).complete := by simp [exec_eq, h]

/-- What a command can do. -/
theorem exec_cases {i : Instr} {s t : State} (h : exec i s = .next t) :
    (∃ e, commandError i s = some e ∧ t = s.raise e) ∨
    (commandError i s = none ∧ t = (commandWrites i s).complete) := by
  cases he : commandError i s with
  | some e => cases (exec_of_error he).symm.trans h; exact .inl ⟨e, rfl, rfl⟩
  | none => cases (exec_of_no_error he).symm.trans h; exact .inr ⟨rfl, rfl⟩

/-- The errors of the commands: a range error of PACK and ENCODE, a format error of B64DEC and DECODE. -/
theorem commandError_cases {i : Instr} {s : State} {e : CommandError} (h : commandError i s = some e) :
    ((i = .pack ∨ i = .encode) ∧ rangeMask s.field ≠ 0#11 ∧ e = .range (rangeMask s.field)) ∨
    ((i = .b64dec ∨ i = .decode) ∧ s.tokenCause ≠ .none ∧ e = .format s.tokenCause) := by
  cases i with
  | unpack | b64enc => cases h
  | pack | encode => simp_all [commandError]
  | b64dec | decode => simp_all [commandError]

/-- What a CMD write can do: IllegalCommand, or a command (40_host_bus.md R86). -/
theorem execute_cases {w : Word} {s t : State} (h : execute w s = .next t) :
    ((∃ e, decode w = .error e) ∧ t = s.raise .illegal) ∨ ∃ i, w = encode i ∧ exec i s = .next t := by
  unfold execute at h
  split at h
  · rename_i i hd; exact .inr ⟨i, eq_encode_of_decode hd, h⟩
  · rename_i e hd; cases h; exact .inl ⟨⟨e, hd⟩, rfl⟩

/-! ## What commands and stores leave unchanged -/

@[simp] theorem commandWrites_config (i : Instr) (s : State) : (commandWrites i s).config = s.config := by
  cases i <;> rfl
@[simp] theorem commandWrites_resetAsserted (i : Instr) (s : State) :
    (commandWrites i s).resetAsserted = s.resetAsserted := by cases i <;> rfl

/-- A CMD write leaves the configuration and the reset input. -/
theorem execute_config_resetAsserted {w : Word} {s t : State} (h : execute w s = .next t) :
    t.config = s.config ∧ t.resetAsserted = s.resetAsserted := by
  rcases execute_cases h with ⟨-, rfl⟩ | ⟨i, -, hi⟩
  · exact ⟨rfl, rfl⟩
  · rcases exec_cases hi with ⟨e, -, rfl⟩ | ⟨-, rfl⟩ <;> simp

@[simp] theorem writeReg_status (s : State) (r : Reg) (v : Word) : (writeReg s r v).status = s.status := by
  cases r <;> rfl
@[simp] theorem writeReg_config (s : State) (r : Reg) (v : Word) : (writeReg s r v).config = s.config := by
  cases r <;> rfl
@[simp] theorem writeReg_resetAsserted (s : State) (r : Reg) (v : Word) :
    (writeReg s r v).resetAsserted = s.resetAsserted := by cases r <;> rfl

/-! ## Legal STATUS values -/

theorem Status.ok_legal (strict : Bool) : Status.ok.Legal strict := by
  constructor <;> simp [Status.ok]

theorem CommandError.illegal_legal (strict : Bool) : CommandError.illegal.status.Legal strict := by
  constructor <;> simp [CommandError.status]

/-- A range error's STATUS is legal because its mask is not 0. -/
theorem CommandError.range_legal {mask : BitVec 11} (h : mask ≠ 0#11) (strict : Bool) :
    (CommandError.range mask).status.Legal strict := by
  constructor <;> simp [CommandError.status, h]

/-- A format error's STATUS is legal when it has a cause, and PAD_BITS only in strict mode. -/
theorem CommandError.format_legal {c : FmtCause} {strict : Bool} (h : c ≠ .none)
    (hs : c = .padBits → strict = true) : (CommandError.format c).status.Legal strict := by
  cases c with
  | none => exact absurd rfl h
  | padBits => constructor <;> simp [CommandError.status, FmtCause.code, hs rfl]
  | length | badDataChar | badPadChar => constructor <;> simp [CommandError.status, FmtCause.code]

/-- The token check finds PAD_BITS only where P_STRICT_PAD_BITS = 1 (42_decoder.md R120). -/
theorem strict_of_tokenCheck_eq_padBits {strict : Bool} {token : Vector Byte 64} {len : BitVec 16}
    (h : tokenCheck strict token len = .padBits) : strict = true := by
  simp only [tokenCheck] at h
  repeat' split at h
  all_goals cases h
  rename_i hstrict
  exact (Bool.and_eq_true_iff.mp hstrict).1

/-- Every error of a command leaves a legal STATUS. -/
theorem commandError_legal {i : Instr} {s : State} {e : CommandError} (h : commandError i s = some e) :
    e.status.Legal s.config.strictPadBits := by
  rcases commandError_cases h with ⟨-, hm, rfl⟩ | ⟨-, hc, rfl⟩
  · exact CommandError.range_legal hm _
  · exact CommandError.format_legal hc strict_of_tokenCheck_eq_padBits

/-- Every CMD write leaves a legal STATUS, whatever it was before. -/
theorem execute_legal {w : Word} {s t : State} (h : execute w s = .next t) :
    t.status.Legal s.config.strictPadBits := by
  rcases execute_cases h with ⟨-, rfl⟩ | ⟨i, -, hi⟩
  · exact CommandError.illegal_legal _
  · rcases exec_cases hi with ⟨e, he, rfl⟩ | ⟨-, rfl⟩
    · exact commandError_legal he
    · exact Status.ok_legal _

/-! ## Registers at their reset values -/

/-- The reset values register by register (10_state.md R36). -/
theorem State.registersAtReset_iff (s : State) :
    s.RegistersAtReset ↔ s.field = Vector.replicate 11 0#32 ∧ s.flags = 0#2 ∧ s.frame = Vector.replicate 28 0#8 ∧
      s.token = Vector.replicate 64 0#8 ∧ s.tokenLen = 0#16 ∧ s.status = Status.ok := by
  cases s
  simp [State.RegistersAtReset, State.resetFor, Status.ok]

/-- What the host reads of registers at their reset values. -/
theorem State.RegistersAtReset.values {s : State} (h : s.RegistersAtReset) :
    (∀ (i : Nat) (h : i < 11), s.field[i] = 0#32) ∧ s.flags = 0#2 ∧ (∀ (k : Nat) (h : k < 28), s.frame[k] = 0#8) ∧
    (∀ (k : Nat) (h : k < 64), s.token[k] = 0#8) ∧ s.tokenLen = 0#16 ∧ s.status.word = 0#32 ∧
    busRead s 0x000 = (.ok, 0#32) := by
  obtain ⟨hfield, hflags, hframe, htoken, hlen, hstatus⟩ := s.registersAtReset_iff.mp h
  refine ⟨?_, hflags, ?_, ?_, hlen, ?_, rfl⟩
  · simp [hfield]
  · simp [hframe]
  · simp [htoken]
  · rw [hstatus]; decide

theorem State.resetFor_registersAtReset (c : Configuration) : (State.resetFor c).RegistersAtReset := rfl

theorem State.driveReset_registersAtReset (s : State) (asserted : Bool) :
    (s.driveReset asserted).RegistersAtReset := rfl

/-- The two reset actions drive the reset input to their level (70_reset_and_hazards.md R170). -/
theorem runAction_reset (s : State) (asserted : Bool) :
    runAction s (if asserted then .assertReset else .releaseReset) = .next (s.driveReset asserted) := by
  cases asserted <;> rfl

/-! ## The invariant -/

/-- Registers at their reset values satisfy the invariant, whatever the reset input is. -/
theorem State.RegistersAtReset.inv {s : State} (h : s.RegistersAtReset) : s.Inv where
  status_legal := by
    obtain ⟨-, -, -, -, -, hstatus⟩ := s.registersAtReset_iff.mp h
    rw [hstatus]
    exact Status.ok_legal _
  held_in_reset := fun _ => h

/-- With reset released the invariant is that STATUS is legal. -/
theorem State.inv_of_released {s : State} (hr : s.resetAsserted = false)
    (hl : s.status.Legal s.config.strictPadBits) : s.Inv :=
  ⟨hl, fun h => absurd (hr.symm.trans h) Bool.false_ne_true⟩

/-- The last answer is no part of the invariant. -/
theorem State.Inv.respond {s : State} (h : s.Inv) (r : BusResult) : (s.respond r).Inv :=
  ⟨h.status_legal, fun hr => by simpa [State.registersAtReset_iff] using h.held_in_reset hr⟩

/-- The actions to come are no part of the invariant. -/
theorem State.Inv.withPending {s : State} (h : s.Inv) (as : List HostAction) : (s.withPending as).Inv :=
  ⟨h.status_legal, fun hr => by simpa [State.registersAtReset_iff] using h.held_in_reset hr⟩

/-- A bus write with reset released keeps the invariant: only a command changes STATUS, and it leaves it legal. -/
theorem busWrite_keeps_inv {s t : State} {off : Nat} {v : Word} (hi : s.Inv) (hr : s.resetAsserted = false)
    (h : busWrite s off v = .next t) : t.Inv := by
  rcases busWrite_cases h with ⟨-, rfl⟩ | ⟨u, -, hu, rfl⟩ | ⟨r, -, -, rfl⟩
  · exact hi.respond _
  · obtain ⟨hconfig, hreset⟩ := execute_config_resetAsserted hu
    have hlegal : u.status.Legal u.config.strictPadBits := by rw [hconfig]; exact execute_legal hu
    exact (State.inv_of_released (hreset.trans hr) hlegal).respond _
  · have hlegal : (writeReg s r v).status.Legal (writeReg s r v).config.strictPadBits := by
      simpa using hi.status_legal
    exact (State.inv_of_released (by simpa using hr) hlegal).respond _

/-- One host action keeps the invariant. -/
theorem runAction_keeps_inv {s t : State} {a : HostAction} (hi : s.Inv) (h : runAction s a = .next t) : t.Inv := by
  rcases runAction_cases h with ⟨r, rfl⟩ | ⟨off, v, hr, hw⟩ | ⟨b, rfl⟩
  · exact hi.respond r
  · exact busWrite_keeps_inv hi hr hw
  · exact (s.driveReset_registersAtReset b).inv

/-- One step keeps the invariant. -/
theorem step_keeps_inv {s t : State} (hi : s.Inv) (h : step s = .next t) : t.Inv := by
  rcases step_cases h with ⟨-, rfl⟩ | ⟨a, rest, -, ha⟩
  · exact hi
  · exact runAction_keeps_inv (hi.withPending rest) ha

/-! ## What a command depends on -/

/-- The error of a command depends only on what the command reads. -/
theorem commandError_of_readsAgree {i : Instr} {s t : State} (h : ReadsAgree s t i) :
    commandError i s = commandError i t := by
  cases i with
  | unpack | b64enc => rfl
  | pack | encode =>
    obtain ⟨hfield, -⟩ := h
    simp only [commandError, hfield]
  | b64dec | decode =>
    obtain ⟨htoken, hlen, hstrict⟩ := h
    have hcause : s.tokenCause = t.tokenCause := by simp only [State.tokenCause, htoken, hlen, hstrict]
    simp only [commandError, hcause]

/-- The values a completing command writes depend only on what the command reads. -/
theorem commandWrites_of_readsAgree {i : Instr} {s t : State} (h : ReadsAgree s t i) :
    WritesAgree (commandWrites i s).complete (commandWrites i t).complete i := by
  cases i with
  | unpack | b64enc => simp [WritesAgree, commandWrites, show s.frame = t.frame from h]
  | pack | encode =>
    obtain ⟨hfield, hflags⟩ := h
    simp [WritesAgree, commandWrites, hfield, hflags]
  | b64dec | decode =>
    obtain ⟨htoken, -, -⟩ := h
    simp [WritesAgree, commandWrites, htoken]

/-- An error's ERR is not OK (10_state.md R28). -/
theorem CommandError.status_err_ne_zero (e : CommandError) : e.status.err ≠ 0#3 := by
  cases e <;> simp [CommandError.status]

/-- With no action pending a step changes nothing. -/
theorem step_of_no_pending {s : State} (h : s.pending = []) : step s = .next s := by
  unfold step runPending
  rw [h]

/-! ## STATUS -/

/-- RANGE_MASK stands at bits 26:16 of the STATUS word (10_state.md R27). -/
theorem Status.word_rangeMask (st : Status) (i : Fin 11) : st.word.getLsbD (16 + i.val) = st.rangeMask[i.val] := by
  have hi := i.isLt
  simp only [Status.word, BitVec.getLsbD_append]
  rw [if_neg (by omega), if_neg (by omega), if_neg (by omega), if_neg (by omega), if_pos (by omega),
    show 16 + i.val - 3 - 1 - 4 - 8 = i.val by omega, BitVec.getLsbD_eq_getElem]

/-- The table of maxima in 10_state.md R22 is the model's. -/
theorem maxTicks_eq_MaxOf (i : Fin 11) : maxTicks i = MaxOf i := rfl

/-- A range error's mask marks exactly the fields above their maxima. -/
theorem rangeMask_marks (field : Vector Word 11) (i : Fin 11) :
    (rangeMask field)[i.val] = decide (field[i].toNat > MaxOf i) := by
  rw [rangeMask_bit, outOfRange, maxTicks_eq_MaxOf]

/-- What a CMD write can leave in STATUS: a range error of PACK or ENCODE, or a STATUS with no RANGE_MASK and another
ERR (10_state.md R30). -/
theorem execute_rangeMask_cases {w : Word} {s t : State} (h : execute w s = .next t) :
    ((w = 0x00000001#32 ∨ w = 0x00000005#32) ∧ t.status = ⟨1#3, 0#4, rangeMask s.field⟩) ∨
    (t.status.err ≠ 1#3 ∧ t.status.rangeMask = 0#11) := by
  rcases execute_cases h with ⟨-, rfl⟩ | ⟨i, rfl, hi⟩
  · exact .inr (by simp [CommandError.status])
  rcases exec_cases hi with ⟨e, he, rfl⟩ | ⟨-, rfl⟩
  · rcases commandError_cases he with ⟨hpe, -, rfl⟩ | ⟨-, -, rfl⟩
    · exact .inl ⟨hpe.imp (fun h => by rw [h]; rfl) (fun h => by rw [h]; rfl), rfl⟩
    · exact .inr (by simp [CommandError.status])
  · exact .inr (by simp [Status.ok])

/-- A bus write to another offset than CMD leaves STATUS. -/
theorem busWrite_status {s t : State} {off : Nat} {v : Word} (hoff : off ≠ 0) (h : busWrite s off v = .next t) :
    t.status = s.status := by
  rcases busWrite_cases h with ⟨-, rfl⟩ | ⟨u, h0, -, -⟩ | ⟨r, -, -, rfl⟩
  · rfl
  · exact absurd h0 hoff
  · simp

/-- An access to the window with a next state is a bus write. -/
theorem busWrite_of_windowWrite {s t : State} {off : Nat} {v : Word} (h : windowWrite s off v = .next t) :
    busWrite s off v = .next t := by
  unfold windowWrite at h
  split at h
  · cases h
  · exact h

/-- A host action leaves STATUS unless it writes CMD or drives the reset input (10_state.md R27). -/
theorem runAction_status {s t : State} {a : HostAction} (h : runAction s a = .next t) :
    t.status = s.status ∨ a = .assertReset ∨ a = .releaseReset ∨ ∃ w, a = .busWrite s.config.base w := by
  cases a with
  | assertReset => exact .inr (.inl rfl)
  | releaseReset => exact .inr (.inr (.inl rfl))
  | busRead addr =>
    simp only [runAction] at h
    split at h
    · cases h; exact .inl rfl
    · split at h <;> cases h; exact .inl rfl
  | busWrite addr v =>
    simp only [runAction] at h
    split at h
    · cases h; exact .inl rfl
    · rename_i off hoff
      obtain ⟨haddr, -⟩ := offsetOf_eq_some_iff.mp hoff
      by_cases h0 : off = 0
      · exact .inr (.inr (.inr ⟨v, by rw [haddr, h0, Nat.add_zero]⟩))
      · exact .inl (busWrite_status h0 (busWrite_of_windowWrite h))
  | presentTick i ticks =>
    cases ticks with
    | none => cases h
    | some n =>
      simp only [runAction] at h
      split at h
      · cases h
      · exact .inl (busWrite_status (by simp [Reg.offset]) (busWrite_of_windowWrite h))

/-- The STATUS word as its three fields shifted to their places (10_state.md R27). -/
theorem Status.word_eq_or (st : Status) :
    st.word = st.err.setWidth 32 ||| (st.fmtCause.setWidth 32 <<< 4) ||| (st.rangeMask.setWidth 32 <<< 16) := by
  apply BitVec.eq_of_getLsbD_eq
  intro k hk
  simp only [Status.word, BitVec.getLsbD_append, BitVec.getLsbD_or, BitVec.getLsbD_shiftLeft, BitVec.getLsbD_setWidth]
  grind

/-- The STATUS word of a range error (60_exceptions.md R140). -/
theorem CommandError.range_word (mask : BitVec 11) :
    (CommandError.range mask).status.word = 1#32 ||| (mask.setWidth 32 <<< 16) := by
  rw [Status.word_eq_or]
  simp [CommandError.status]

/-! ## The obligations -/

/-- Settles O4: a bus write is the only step that changes registers outside reset, and a command's STATUS is legal. -/
theorem stepKeepsInvariant : Obligations.StepKeepsInvariant :=
  fun _ _ hi h => step_keeps_inv hi h

/-- Settles O18: the two states have the same error, and without one they write the same values. -/
theorem commandsReadOnlyTheirRegisters : Obligations.CommandsReadOnlyTheirRegisters := by
  intro i s t s' t' hagree hs ht
  have herr := commandError_of_readsAgree hagree
  rcases exec_cases hs with ⟨e, he, rfl⟩ | ⟨hn, rfl⟩
  · cases (exec_of_error (herr.symm.trans he)).symm.trans ht
    exact ⟨rfl, fun hok => absurd hok e.status_err_ne_zero⟩
  · cases (exec_of_no_error (herr.symm.trans hn)).symm.trans ht
    exact ⟨rfl, fun _ => commandWrites_of_readsAgree hagree⟩

/-- Settles O21, on the two kinds of STATUS a CMD write leaves. -/
theorem rangeMaskMarksEveryField : Obligations.RangeMaskMarksEveryField := by
  intro w s t h
  rcases execute_rangeMask_cases h with ⟨hw, hst⟩ | ⟨herr, hmask⟩
  · refine ⟨fun _ i => ?_, fun hnot => absurd ⟨hw, by rw [hst]⟩ hnot⟩
    rw [hst, Status.word_rangeMask, rangeMask_marks]
  · exact ⟨fun ⟨_, h1⟩ => absurd h1 herr, fun _ => hmask⟩

/-- Settles O45: the action that ran is the only one that can change STATUS. -/
theorem statusChangesOnlyByCommandOrReset : Obligations.StatusChangesOnlyByCommandOrReset := by
  intro s t h hne
  rcases step_cases h with ⟨-, rfl⟩ | ⟨a, rest, hp, ha⟩
  · exact absurd rfl hne
  · exact ⟨a, rest, hp, (runAction_status ha).resolve_left hne⟩

/-- Settles O1: the state after reset and the state a reset action leaves have their registers at reset. -/
theorem resetGivesEveryRegisterItsValue : Obligations.ResetGivesEveryRegisterItsValue := by
  refine ⟨fun c s hs => hs ▸ (State.resetFor_registersAtReset c).values, fun s asserted rest hp => ?_⟩
  obtain ⟨hfield, hflags, hframe, htoken, hlen, hword, hcmd⟩ :=
    ((s.withPending rest).driveReset_registersAtReset asserted).values
  exact ⟨_, (step_of_pending hp).trans (runAction_reset _ asserted), hfield, hflags, hframe, htoken, hlen, hword, hcmd,
    rfl, rfl, rfl, rfl⟩

/-- Settles O3: the registers after reset are at their reset values, which satisfy the invariant. -/
theorem invariantHoldsAfterReset : Obligations.InvariantHoldsAfterReset :=
  ⟨fun c => (State.resetFor_registersAtReset c).inv, rfl⟩

/-- Settles O22: the range error for every mask, the rest by evaluation of each outcome. -/
theorem statusWordOfEachOutcome : Obligations.StatusWordOfEachOutcome := by
  refine ⟨by decide, by decide, CommandError.range_word, fun c n hcn => ?_⟩
  simp only [List.mem_cons, Prod.mk.injEq, List.not_mem_nil, or_false] at hcn
  rcases hcn with ⟨rfl, rfl⟩ | ⟨rfl, rfl⟩ | ⟨rfl, rfl⟩ | ⟨rfl, rfl⟩ <;> decide

/-- Settles O46, on the branch of the step with nothing pending. -/
theorem blockNeverActsByItself : Obligations.BlockNeverActsByItself :=
  fun _ => step_of_no_pending

end Sys2Proof.Machine

/-! # The register window: what a command leaves, what a repeated command and later host actions change

A command's reads and writes are disjoint (20_memory.md R51), so it leaves what it reads. The host's actions to come are
read by nothing but the step itself, so replacing them commutes with every operation. -/

namespace Sys2Proof.Machine

/-! ## The register map -/

/-- The holes of the window: a misaligned or an unmapped offset (20_memory.md R42, R48). -/
theorem regAt_eq_none_iff {off : Nat} (hoff : off < 0x100) : regAt off = none ↔ off % 4 ≠ 0 ∨ Unmapped off := by
  by_cases h4 : off % 4 = 0
  · simp only [regAt, Unmapped, h4, ne_eq, not_true_eq_false, if_false, false_or]
    split_ifs <;> simp only [true_iff, false_iff] <;> omega
  · simp [regAt, h4]

/-- An address outside the window has no offset (20_memory.md R40). -/
theorem offsetOf_eq_none_iff {c : Configuration} {addr : Nat} :
    offsetOf c addr = none ↔ addr < c.base ∨ c.base + 0x100 ≤ addr := by
  unfold offsetOf Config.windowBytes
  split <;> simp only [reduceCtorEq, true_iff, false_iff] <;> omega

/-- A bus read outside the window gets no answer. -/
theorem runAction_busRead_outside {s : State} {addr : Nat} (h : offsetOf s.config addr = none) :
    runAction s (.busRead addr) = .next (s.respond .silent) := by
  simp only [runAction, h]

/-- A bus write outside the window gets no answer. -/
theorem runAction_busWrite_outside {s : State} {addr : Nat} (v : Word) (h : offsetOf s.config addr = none) :
    runAction s (.busWrite addr v) = .next (s.respond .silent) := by
  simp only [runAction, h]

/-! ## The frame of a command, register by register -/

@[simp] theorem commandWrites_pending (i : Instr) (s : State) : (commandWrites i s).pending = s.pending := by
  cases i <;> rfl
@[simp] theorem commandWrites_result (i : Instr) (s : State) : (commandWrites i s).result = s.result := by
  cases i <;> rfl

/-- Every command writes STATUS. -/
theorem writesOffset_status (i : Instr) : writesOffset i Reg.status.offset := .inl rfl

/-- FLAGS changes only in a command that lists it as written. -/
theorem commandWrites_flags {i : Instr} (s : State) (h : ¬ writesOffset i Reg.flags.offset) :
    (commandWrites i s).flags = s.flags := by
  cases i with
  | pack | b64enc | b64dec | encode => rfl
  | unpack | decode => simp [writesOffset, Reg.offset] at h

/-- FIELD changes only in a command that lists it as written. -/
theorem commandWrites_field {i : Instr} (s : State) {k : Fin 11} (h : ¬ writesOffset i (Reg.field k).offset) :
    (commandWrites i s).field = s.field := by
  cases i with
  | pack | b64enc | b64dec | encode => rfl
  | unpack | decode => simp only [writesOffset, Reg.offset] at h; omega

/-- FRAME changes only in a command that lists it as written. -/
theorem commandWrites_frame {i : Instr} (s : State) {k : Fin 7} (h : ¬ writesOffset i (Reg.frameWord k).offset) :
    (commandWrites i s).frame = s.frame := by
  cases i with
  | unpack | b64enc => rfl
  | pack | b64dec | encode | decode => simp only [writesOffset, Reg.offset] at h; omega

/-- TOKEN_LEN changes only in a command that lists it as written. -/
theorem commandWrites_tokenLen {i : Instr} (s : State) (h : ¬ writesOffset i Reg.tokenLen.offset) :
    (commandWrites i s).tokenLen = s.tokenLen := by
  cases i with
  | pack | unpack | b64dec | decode => rfl
  | b64enc | encode => simp [writesOffset, Reg.offset] at h

/-- TOKEN changes only in a command that lists it as written. -/
theorem commandWrites_token {i : Instr} (s : State) {k : Fin 16} (h : ¬ writesOffset i (Reg.tokenWord k).offset) :
    (commandWrites i s).token = s.token := by
  cases i with
  | pack | unpack | b64dec | decode => rfl
  | b64enc | encode => simp only [writesOffset, Reg.offset] at h; omega

/-- The writes of a command leave the value of every register that it does not list as written. -/
theorem readReg_commandWrites {i : Instr} (s : State) {r : Reg} (h : ¬ writesOffset i r.offset) :
    readReg (commandWrites i s) r = readReg s r := by
  cases r with
  | cmd => rfl
  | status => exact absurd (writesOffset_status i) h
  | flags => simp only [readReg, commandWrites_flags s h]
  | field k => simp only [readReg, commandWrites_field s h]
  | frameWord k => simp only [readReg, commandWrites_frame s h]
  | tokenLen => simp only [readReg, commandWrites_tokenLen s h]
  | tokenWord k => simp only [readReg, commandWrites_token s h]

/-- STATUS is the only register that shows a new STATUS. -/
theorem readReg_withStatus (s : State) (st : Status) {r : Reg} (h : r ≠ .status) :
    readReg (s.withStatus st) r = readReg s r := by
  cases r with
  | status => exact absurd rfl h
  | cmd | flags | field | frameWord | tokenLen | tokenWord => rfl

/-- A command leaves the value of every register that it does not list as written (20_memory.md R51). -/
theorem readReg_exec {i : Instr} {s t : State} {r : Reg} (h : exec i s = .next t) (hw : ¬ writesOffset i r.offset) :
    readReg t r = readReg s r := by
  have hr : r ≠ .status := fun hr => hw (hr ▸ writesOffset_status i)
  rcases exec_cases h with ⟨e, -, rfl⟩ | ⟨-, rfl⟩
  · exact readReg_withStatus s e.status hr
  · exact (readReg_withStatus _ Status.ok hr).trans (readReg_commandWrites s hw)

/-- Two states that show the same value of every register at an offset answer a read there alike. -/
theorem busRead_congr {s t : State} {off : Nat} (h : ∀ r, off = r.offset → readReg t r = readReg s r) :
    busRead t off = busRead s off := by
  unfold busRead
  split
  · rfl
  · rename_i r hr
    rw [h r (eq_offset_of_regAt hr)]

/-- A command changes nothing outside the registers. -/
theorem exec_keeps_nonregisters {i : Instr} {s t : State} (h : exec i s = .next t) :
    t.config = s.config ∧ t.resetAsserted = s.resetAsserted ∧ t.pending = s.pending ∧ t.result = s.result := by
  rcases exec_cases h with ⟨e, -, rfl⟩ | ⟨-, rfl⟩ <;> simp

/-! ## A command run again -/

/-- No command reads STATUS. -/
theorem readsAgree_withStatus (i : Instr) (s : State) (st : Status) : ReadsAgree (s.withStatus st) s i := by
  cases i with
  | unpack | b64enc => rfl
  | pack | encode => exact ⟨rfl, rfl⟩
  | b64dec | decode => exact ⟨rfl, rfl, rfl⟩

/-- No command writes what it reads (20_memory.md R51). -/
theorem readsAgree_complete (i : Instr) (s : State) : ReadsAgree (commandWrites i s).complete s i := by
  cases i with
  | unpack | b64enc => rfl
  | pack | encode => exact ⟨rfl, rfl⟩
  | b64dec | decode => exact ⟨rfl, rfl, rfl⟩

/-- A command leaves what it reads. -/
theorem readsAgree_of_exec {i : Instr} {s t : State} (h : exec i s = .next t) : ReadsAgree t s i := by
  rcases exec_cases h with ⟨e, -, rfl⟩ | ⟨-, rfl⟩
  · exact readsAgree_withStatus i s e.status
  · exact readsAgree_complete i s

/-- A command that completes once more writes the values it wrote. -/
theorem commandWrites_complete_idem (i : Instr) (s : State) :
    (commandWrites i (commandWrites i s).complete).complete = (commandWrites i s).complete := by
  cases i <;> rfl

/-- An error raised once more replaces STATUS by itself. -/
@[simp] theorem State.raise_raise (s : State) (e e' : CommandError) : (s.raise e).raise e' = s.raise e' := rfl

/-- Every command is idempotent: run again it has the same error, or writes the same values. -/
theorem exec_idem {i : Instr} {s t : State} (h : exec i s = .next t) : exec i t = .next t := by
  have herr := commandError_of_readsAgree (readsAgree_of_exec h)
  rcases exec_cases h with ⟨e, he, rfl⟩ | ⟨hn, rfl⟩
  · rw [exec_of_error (herr.trans he), State.raise_raise]
  · rw [exec_of_no_error (herr.trans hn), commandWrites_complete_idem]

/-- A command's own word decodes to it (30_encoding.md R61). -/
@[simp] theorem decode_encode (i : Instr) : decode (encode i) = .ok i := by
  cases i <;> rfl

/-- A write of a command's word to CMD runs that command. -/
theorem execute_encode (i : Instr) (s : State) : execute (encode i) s = exec i s := by
  simp only [execute, decode_encode]

/-- A write of an illegal word to CMD raises IllegalCommand. -/
theorem execute_of_decode_error {w : Word} {e : DecodeError} (h : decode w = .error e) (s : State) :
    execute w s = .next (s.raise .illegal) := by
  simp only [execute, h]

/-! ## The host's actions to come -/

@[simp] theorem readReg_withPending (s : State) (as : List HostAction) (r : Reg) :
    readReg (s.withPending as) r = readReg s r := by
  cases r <;> rfl

theorem busRead_withPending (s : State) (as : List HostAction) (off : Nat) :
    busRead (s.withPending as) off = busRead s off :=
  busRead_congr fun r _ => readReg_withPending s as r

theorem writeReg_withPending (s : State) (as : List HostAction) (r : Reg) (v : Word) :
    writeReg (s.withPending as) r v = (writeReg s r v).withPending as := by
  cases r <;> rfl

theorem commandError_withPending (i : Instr) (s : State) (as : List HostAction) :
    commandError i (s.withPending as) = commandError i s := by
  cases i <;> rfl

theorem commandWrites_withPending (i : Instr) (s : State) (as : List HostAction) :
    commandWrites i (s.withPending as) = (commandWrites i s).withPending as := by
  cases i <;> rfl

/-- A command does not see the actions to come. -/
theorem exec_withPending (i : Instr) (s : State) (as : List HostAction) :
    exec i (s.withPending as) = onNext (exec i s) (·.withPending as) := by
  rw [exec_eq, exec_eq, commandError_withPending, commandWrites_withPending]
  cases commandError i s <;> rfl

/-- A CMD write does not see the actions to come. -/
theorem execute_withPending (w : Word) (s : State) (as : List HostAction) :
    execute w (s.withPending as) = onNext (execute w s) (·.withPending as) := by
  cases hd : decode w with
  | error e => rw [execute_of_decode_error hd, execute_of_decode_error hd]; rfl
  | ok i => rw [eq_encode_of_decode hd, execute_encode, execute_encode, exec_withPending]

/-- A bus write does not see the actions to come. -/
theorem busWrite_withPending (s : State) (as : List HostAction) (off : Nat) (v : Word) :
    busWrite (s.withPending as) off v = onNext (busWrite s off v) (·.withPending as) := by
  unfold busWrite
  split
  · rfl
  · obtain ⟨u, hu⟩ := execute_total v s
    rw [execute_withPending, hu]
    rfl
  · rw [writeReg_withPending]
    rfl

/-- An access to the window does not see the actions to come. -/
theorem windowWrite_withPending (s : State) (as : List HostAction) (off : Nat) (v : Word) :
    windowWrite (s.withPending as) off v = onNext (windowWrite s off v) (·.withPending as) := by
  cases hr : s.resetAsserted with
  | true => simp [windowWrite, hr, onNext]
  | false => simpa [windowWrite, hr] using busWrite_withPending s as off v

/-- A host action does not see the actions to come. -/
theorem runAction_withPending (s : State) (as : List HostAction) (a : HostAction) :
    runAction (s.withPending as) a = onNext (runAction s a) (·.withPending as) := by
  cases a with
  | busRead addr =>
    simp only [runAction, State.withPending_config, State.withPending_resetAsserted, busRead_withPending]
    split
    · rfl
    · split <;> rfl
  | busWrite addr v =>
    simp only [runAction, State.withPending_config]
    split
    · rfl
    · exact windowWrite_withPending s as _ v
  | presentTick i ticks =>
    cases ticks with
    | none => rfl
    | some n =>
      simp only [runAction]
      split
      · rfl
      · exact windowWrite_withPending s as _ _
  | assertReset | releaseReset => rfl

/-- A host action leaves the actions to come: it commutes with putting back the very list that stands there. -/
theorem runAction_pending {s t : State} {a : HostAction} (h : runAction s a = .next t) : t.pending = s.pending := by
  have hback : runAction s a = onNext (runAction s a) (·.withPending s.pending) :=
    runAction_withPending s s.pending a
  rw [h] at hback
  injection hback with ht
  rw [ht, State.withPending_pending]

/-! ## The obligations -/

/-- Settles O17: a read of the window shows a register, and a command leaves those it does not write. -/
theorem commandsWriteOnlyTheirRegisters : Obligations.CommandsWriteOnlyTheirRegisters := by
  intro i s t h
  refine ⟨fun off _ hw => busRead_congr ?_, exec_keeps_nonregisters h⟩
  rintro r rfl
  exact readReg_exec h hw

/-- Settles O19: IllegalCommand reads nothing, and no command writes what it reads. -/
theorem repeatedCommandChangesNothing : Obligations.RepeatedCommandChangesNothing := by
  intro w s t h
  rcases execute_cases h with ⟨⟨e, he⟩, rfl⟩ | ⟨i, rfl, hi⟩
  · exact execute_of_decode_error he _
  · exact (execute_encode i t).trans (exec_idem hi)

/-- Settles O47: a step runs the oldest action, which neither sees nor changes the actions to come. -/
theorem laterActionsDoNotAffectAStep : Obligations.LaterActionsDoNotAffectAStep := by
  intro s t more hne h
  rcases step_cases h with ⟨hp, -⟩ | ⟨a, rest, hp, ha⟩
  · exact absurd hp hne
  have hrest : t.pending = rest := runAction_pending ha
  have happend : { s with pending := s.pending ++ more }.pending = a :: (rest ++ more) := by rw [hp]; rfl
  calc step { s with pending := s.pending ++ more }
      = runAction ((s.withPending rest).withPending (rest ++ more)) a := step_of_pending happend
    _ = .next (t.withPending (rest ++ more)) := by rw [runAction_withPending, ha]; rfl
    _ = .next { t with pending := t.pending ++ more } := by rw [hrest]; rfl

/-- Settles O39, by the register map's own list of holes. -/
theorem registerMapHasExactlyTheUnmappedHoles : Obligations.RegisterMapHasExactlyTheUnmappedHoles :=
  fun _ => regAt_eq_none_iff

/-- Settles O42: an address outside the window has no offset, so the action only records that nothing answered. -/
theorem addressesOutsideTheWindowAreSilent : Obligations.AddressesOutsideTheWindowAreSilent := by
  intro s rest addr v hout hp
  have hnone : offsetOf (s.withPending rest).config addr = none := offsetOf_eq_none_iff.mpr hout
  rcases hp with hp | hp
  · exact (step_of_pending hp).trans (runAction_busRead_outside hnone)
  · exact (step_of_pending hp).trans (runAction_busWrite_outside v hnone)

end Sys2Proof.Machine

/-! # The encoding: command words, the alphabet, the characters of a token

A CMD word is RSVD above OP (30_encoding.md R60), and it is rejected on one of the two. The four characters of a base64
group read the same 24 bits that PACK splits into three bytes, so the characters of a token carry a wide field whole. -/

namespace Sys2Proof.Machine

/-! ## Illegal command words -/

/-- The opcode map's gaps: OP 0x0 and 0x7 to 0xF (30_encoding.md R61, R63). -/
theorem decodeOp_eq_none_iff (op : BitVec 4) : decodeOp op = none ↔ op = 0x0#4 ∨ 7 ≤ op.toNat := by
  revert op; decide

/-- A word with a reserved bit set is rejected for it, whatever its OP is (30_encoding.md R63). -/
theorem decode_of_rsvdField_ne {w : Word} (h : rsvdField w ≠ 0#28) : decode w = .error .reservedBits :=
  if_pos h

/-- A word with no reserved bit set is rejected for an OP that the opcode map does not have (30_encoding.md R63). -/
theorem decode_of_decodeOp_none {w : Word} (hrsvd : rsvdField w = 0#28) (hop : decodeOp (opField w) = none) :
    decode w = .error .reservedOp := by
  simp only [decode, hrsvd, ne_eq, not_true_eq_false, if_false, hop]

/-- A word with no reserved bit set decodes as its OP does (30_encoding.md R61). -/
theorem decode_of_decodeOp_some {w : Word} {i : Instr} (hrsvd : rsvdField w = 0#28)
    (hop : decodeOp (opField w) = some i) : decode w = .ok i := by
  simp only [decode, hrsvd, ne_eq, not_true_eq_false, if_false, hop]

/-- The decoder rejects exactly the illegal words (30_encoding.md R63). -/
theorem decode_error_iff_illegalWord (w : Word) : (∃ e, decode w = .error e) ↔ IllegalWord w := by
  by_cases hrsvd : rsvdField w = 0#28
  · have hill : IllegalWord w ↔ decodeOp (opField w) = none :=
      (or_iff_left (not_not.mpr hrsvd)).trans (decodeOp_eq_none_iff (opField w)).symm
    rw [hill]
    cases hop : decodeOp (opField w) with
    | none => simp [decode_of_decodeOp_none hrsvd hop]
    | some i => simp [decode_of_decodeOp_some hrsvd hop]
  · exact iff_of_true ⟨_, decode_of_rsvdField_ne hrsvd⟩ (.inr hrsvd)

/-! ## A command written to CMD -/

/-- With reset released, a write to P_BASE executes its word and answers OK (40_host_bus.md R81, R86). -/
theorem runAction_cmdWrite {s : State} (hr : s.resetAsserted = false) (w : Word) :
    runAction s (.busWrite s.config.base w) = onNext (execute w s) (·.respond (.write .ok)) := by
  have hwrite : busWrite s 0 w = onNext (execute w s) (·.respond (.write .ok)) := rfl
  simp only [runAction, offsetOf_base, windowWrite, hr, Bool.false_eq_true, if_false, hwrite]

/-! ## The characters of a packed frame -/

/-- The range check passes exactly when no tick count is above its field maximum (41_encoder.md R100). -/
theorem rangeMask_eq_zero_iff_inRange (field : Vector Word 11) : rangeMask field = 0#11 ↔ InRange field := by
  simp [rangeMask_eq_zero_iff, outOfRange, maxTicks_eq_MaxOf, InRange]

/-- An ENCODE in range completes (41_encoder.md R106). -/
theorem commandError_encode_of_inRange {s : State} (h : InRange s.field) : commandError .encode s = none :=
  if_pos ((rangeMask_eq_zero_iff_inRange s.field).mpr h)

/-- Three adjacent bytes of a word make one base64 group: its low 24 bits. -/
theorem group24_extractLsb' (v : Word) :
    group24 (v.extractLsb' 16 8) (v.extractLsb' 8 8) (v.extractLsb' 0 8) = v.extractLsb' 0 24 := by
  rw [group24, BitVec.extractLsb'_append_extractLsb'_eq_extractLsb' (by decide),
    BitVec.extractLsb'_append_extractLsb'_eq_extractLsb' (by decide)]

/-- Group i of a packed frame is the low 24 bits of wide field i (30_encoding.md R71). -/
theorem group24_packFrame (field : Vector Word 11) (flags : BitVec 2) (i : Nat) (h : i < 5) :
    group24 (packFrame field flags)[3 * i] (packFrame field flags)[3 * i + 1] (packFrame field flags)[3 * i + 2] =
      field[i].extractLsb' 0 24 := by
  obtain ⟨h0, h1, h2⟩ := packFrame_wide field flags i h
  rw [h0, h1, h2, group24_extractLsb']

/-- Characters 4i to 4i+3 of a packed frame's token are the four sextets of wide field i (30_encoding.md R71). -/
theorem tokenBuffer_packFrame_wide (field : Vector Word 11) (flags : BitVec 2) (i : Nat) (h : i < 5) :
    (tokenBuffer (packFrame field flags))[4 * i] = enc (field[i].extractLsb' 18 6) ∧
    (tokenBuffer (packFrame field flags))[4 * i + 1] = enc (field[i].extractLsb' 12 6) ∧
    (tokenBuffer (packFrame field flags))[4 * i + 2] = enc (field[i].extractLsb' 6 6) ∧
    (tokenBuffer (packFrame field flags))[4 * i + 3] = enc (field[i].extractLsb' 0 6) := by
  obtain ⟨h0, h1, h2, h3⟩ := tokIndices_group (packFrame field flags) i (by omega)
  rw [group24_packFrame field flags i h, BitVec.extractLsb'_extractLsb'_of_le (by decide)] at h0 h1 h2 h3
  have char {k : Nat} {v : Sextet} (hk : k < 38) (hv : (tokIndices (packFrame field flags))[k] = v) :
      (tokenBuffer (packFrame field flags))[k] = enc v := (tokenBuffer_data _ k hk).trans (congrArg enc hv)
  exact ⟨char _ h0, char _ h1, char _ h2, char _ h3⟩

/-- The last two characters of a packed frame's token: the six reserved bits of the flags byte, which are 0, then FLAGS
above the four pad bits (30_encoding.md R66, R69). -/
theorem tokenBuffer_packFrame_last (field : Vector Word 11) (flags : BitVec 2) :
    (tokenBuffer (packFrame field flags))[36] = enc 0#6 ∧
    (tokenBuffer (packFrame field flags))[37] = enc (flags ++ 0#4) := by
  obtain ⟨h36, h37⟩ := tokIndices_last (packFrame field flags)
  rw [packFrame_flags] at h36 h37
  rw [BitVec.extractLsb'_append_eq_left] at h36
  rw [BitVec.extractLsb'_append_eq_right] at h37
  exact ⟨(tokenBuffer_data _ 36 _).trans (congrArg enc h36), (tokenBuffer_data _ 37 _).trans (congrArg enc h37)⟩

/-- The character of FLAGS above four zero pad bits (30_encoding.md R71). -/
theorem enc_flags (flags : BitVec 2) : enc (flags ++ 0#4) = BitVec.ofNat 8
    (if flags = 0b00#2 then 'A' else if flags = 0b01#2 then 'Q' else if flags = 0b10#2 then 'g' else 'w').toNat := by
  revert flags; decide

/-! ## The alphabet -/

/-- DEC takes each URL-safe character back to its index (30_encoding.md R68). -/
@[simp] theorem dec_enc (v : Sextet) : dec (enc v) = some v :=
  (dec_eq_some_iff (enc v) v).mpr (.inl rfl)

/-- A byte that is no URL-safe character and neither `+` nor `/` is INVALID (30_encoding.md R68). -/
theorem dec_eq_none {b : Byte} (henc : ∀ v, b ≠ enc v) (hplus : b ≠ 0x2B#8) (hslash : b ≠ 0x2F#8) : dec b = none := by
  refine Option.eq_none_iff_forall_ne_some.mpr fun v hv => ?_
  rcases (dec_eq_some_iff b v).mp hv with h | ⟨-, h⟩ | ⟨-, h⟩
  · exact henc v h
  · exact hplus h
  · exact hslash h

/-! ## The obligations -/

/-- Settles O6: the two fields of a word determine it, and each of them is what rejects a word. -/
theorem commandWordsDecodeExactly : Obligations.CommandWordsDecodeExactly :=
  ⟨fun _ i => ⟨eq_encode_of_decode, fun h => h ▸ decode_encode i⟩, decode_error_iff_illegalWord⟩

/-- Settles O27: group i of the packed frame is wide field i, and the flags byte fills the last two characters. -/
theorem tokenCharactersOfAnEncode : Obligations.TokenCharactersOfAnEncode := by
  intro s hrange
  obtain ⟨h36, h37⟩ := tokenBuffer_packFrame_last s.field s.flags
  exact ⟨_, exec_of_no_error (commandError_encode_of_inRange hrange), tokenBuffer_packFrame_wide s.field s.flags,
    h36, h37.trans (enc_flags s.flags)⟩

/-- Settles O7: the six words are the commands' own, and the five others have an OP or an RSVD that is rejected. -/
theorem specCommandWordsDecode : Obligations.SpecCommandWordsDecode :=
  ⟨decode_encode .pack, decode_encode .unpack, decode_encode .b64enc, decode_encode .b64dec, decode_encode .encode,
    decode_encode .decode, decode_of_decodeOp_none (by decide) (by decide),
    decode_of_decodeOp_none (by decide) (by decide), decode_of_decodeOp_none (by decide) (by decide),
    decode_of_rsvdField_ne (by decide), decode_of_rsvdField_ne (by decide)⟩

/-- Settles O8: the oldest action is a CMD write, and its word is the word of the command it decodes to. -/
theorem cmdWriteRunsTheDecodedCommand : Obligations.CmdWriteRunsTheDecodedCommand := by
  intro s rest w i hr hp hd _
  obtain ⟨t, ht⟩ := exec_total i (s.withPending rest)
  refine ⟨t, ht, ?_⟩
  calc step s
      = runAction (s.withPending rest) (.busWrite s.config.base w) := step_of_pending hp
    _ = onNext (execute w (s.withPending rest)) (·.respond (.write .ok)) :=
        runAction_cmdWrite (s := s.withPending rest) hr w
    _ = .next (t.respond (.write .ok)) := by rw [eq_encode_of_decode hd, execute_encode, ht]; rfl

/-- Settles O37: the table has one place for each of the 64 indices, and ENC is compared with it there. -/
theorem encIsTheUrlSafeAlphabet : Obligations.EncIsTheUrlSafeAlphabet := by
  unfold Obligations.EncIsTheUrlSafeAlphabet
  decide

/-- Settles O38: the characters of an index are its URL-safe one and, for 62 and 63, the standard one. -/
theorem decInvertsEnc : Obligations.DecInvertsEnc :=
  ⟨dec_enc, (dec_eq_some_iff _ _).mpr (.inr (.inl ⟨rfl, rfl⟩)), (dec_eq_some_iff _ _).mpr (.inr (.inr ⟨rfl, rfl⟩)),
    fun _ => dec_eq_none⟩

end Sys2Proof.Machine

/-! # The host bus: what a transaction answers and stores, which host actions are refused, the host's numbers

An action on the window is a bus transaction at an offset, and an offset that holds a register is that register's own:
a read shows it and a write stores to it. The host's rounding is the floor of its quotient or the next integer, whichever
is not more than half a tick away. -/

namespace Sys2Proof.Machine

/-! ## An access to the window -/

/-- An offset below 0x100 is in the window (20_memory.md R40). -/
theorem offsetOf_base_add (c : Configuration) {off : Nat} (hoff : off < 0x100) : offsetOf c (c.base + off) = some off :=
  offsetOf_eq_some_iff.mpr ⟨rfl, hoff⟩

/-- With reset released a write to the window is a bus write. -/
theorem windowWrite_of_released {s : State} (hr : s.resetAsserted = false) (off : Nat) (v : Word) :
    windowWrite s off v = busWrite s off v := by
  simp [windowWrite, hr]

/-- With reset asserted a write to the window is refused (70_reset_and_hazards.md R171). -/
theorem windowWrite_of_asserted {s : State} (hr : s.resetAsserted = true) (off : Nat) (v : Word) :
    windowWrite s off v = .refused .accessDuringReset := by
  simp [windowWrite, hr]

/-- A write to the window has a next state exactly with reset released. -/
theorem windowWrite_next_iff (s : State) (off : Nat) (v : Word) :
    (∃ t, windowWrite s off v = .next t) ↔ s.resetAsserted = false := by
  cases hr : s.resetAsserted with
  | true => simp [windowWrite_of_asserted hr]
  | false => simpa [windowWrite_of_released hr] using busWrite_total s off v

/-- With reset released a bus read in the window answers what BusRead gives for its offset (40_host_bus.md R80). -/
theorem step_busRead {s : State} {rest : List HostAction} {off : Nat} (hoff : off < 0x100)
    (hr : s.resetAsserted = false) (hp : s.pending = .busRead (s.config.base + off) :: rest) :
    step s = .next ((s.withPending rest).respond (.read (busRead s off).1 (busRead s off).2)) := by
  rw [step_of_pending hp]
  simp only [runAction, State.withPending_config, State.withPending_resetAsserted, offsetOf_base_add _ hoff, hr,
    Bool.false_eq_true, if_false, busRead_withPending]

/-- With reset released a bus write in the window is BusWrite at its offset (40_host_bus.md R81). -/
theorem step_busWrite {s : State} {rest : List HostAction} {off : Nat} {v : Word} (hoff : off < 0x100)
    (hr : s.resetAsserted = false) (hp : s.pending = .busWrite (s.config.base + off) v :: rest) :
    step s = busWrite (s.withPending rest) off v := by
  have hr' : (s.withPending rest).resetAsserted = false := hr
  rw [step_of_pending hp]
  simp only [runAction, State.withPending_config, offsetOf_base_add _ hoff, windowWrite_of_released hr']

/-! ## A transaction at a register and at a hole of the window -/

/-- A read where there is no register answers BUSERR with data 0. -/
theorem busRead_of_no_reg {off : Nat} (h : regAt off = none) (s : State) : busRead s off = (.busErr, 0#32) := by
  simp only [busRead, h]

/-- A read at a register's offset answers OK with its value. -/
theorem busRead_of_reg {off : Nat} {r : Reg} (h : off = r.offset) (s : State) : busRead s off = (.ok, readReg s r) := by
  simp only [busRead, h, regAt_offset]

/-- The data of a read at a register's offset. -/
theorem busRead_data {off : Nat} {r : Reg} (h : off = r.offset) (s : State) : (busRead s off).2 = readReg s r :=
  congrArg Prod.snd (busRead_of_reg h s)

/-- A write where there is no register answers BUSERR and changes no register. -/
theorem busWrite_of_no_reg {off : Nat} (h : regAt off = none) (s : State) (v : Word) :
    busWrite s off v = .next (s.respond (.write .busErr)) := by
  simp only [busWrite, h]

/-- A write to CMD executes the data and then answers OK. -/
theorem busWrite_cmd (s : State) (v : Word) : busWrite s 0x000 v = onNext (execute v s) (·.respond (.write .ok)) := rfl

/-- A write at another register's offset stores to it and answers OK. -/
theorem busWrite_of_reg {off : Nat} {r : Reg} (hne : r ≠ .cmd) (h : off = r.offset) (s : State) (v : Word) :
    busWrite s off v = .next ((writeReg s r v).respond (.write .ok)) := by
  subst h
  cases r with
  | cmd => exact absurd rfl hne
  | _ => simp only [busWrite, regAt_offset]

/-- A buffer that takes a word at index k takes its four bytes big-endian and keeps every other byte
(20_memory.md R44, R45). -/
theorem bigEndian_of_getElem {n k : Nat} {old new : Vector Byte n} {v : Word} (hk : 4 * k + 3 < n)
    (h : ∀ (j : Nat) (hj : j < n), new[j] = if j / 4 = k then byteLane v (3 - j % 4) else old[j]) :
    new[4 * k] = v.extractLsb' 24 8 ∧ new[4 * k + 1] = v.extractLsb' 16 8 ∧ new[4 * k + 2] = v.extractLsb' 8 8 ∧
    new[4 * k + 3] = v.extractLsb' 0 8 ∧ ∀ (j : Nat) (hj : j < n), j / 4 ≠ k → new[j] = old[j] := by
  have byte (r : Nat) (hr : r < 4) : new[4 * k + r] = byteLane v (3 - r) := by
    rw [h, if_pos (by omega), show (4 * k + r) % 4 = r by omega]
  exact ⟨byte 0 (by decide), byte 1 (by decide), byte 2 (by decide), byte 3 (by decide),
    fun j hj hne => by rw [h, if_neg hne]⟩

/-! ## The host actions with no next state -/

/-- A host action has a next state exactly when it is not forbidden (60_exceptions.md R150). -/
theorem runAction_next_iff (s : State) (a : HostAction) : (∃ t, runAction s a = .next t) ↔ ¬ Forbidden s a := by
  cases a with
  | busRead addr =>
    cases hoff : offsetOf s.config addr with
    | none => simp [runAction, Forbidden, accessesWindow, HostAction.wellFormed, hoff]
    | some off =>
      cases hr : s.resetAsserted <;> simp [runAction, Forbidden, accessesWindow, HostAction.wellFormed, hoff, hr]
  | busWrite addr v =>
    cases hoff : offsetOf s.config addr with
    | none => simp [runAction, Forbidden, accessesWindow, HostAction.wellFormed, hoff]
    | some off => simp [runAction, Forbidden, accessesWindow, HostAction.wellFormed, hoff, windowWrite_next_iff]
  | presentTick i ticks =>
    cases ticks with
    | none => simp [runAction, Forbidden, HostAction.wellFormed]
    | some n =>
      by_cases hn : n < 0
      · simp [runAction, Forbidden, HostAction.wellFormed, hn]
      · simp [runAction, Forbidden, accessesWindow, HostAction.wellFormed, hn, not_lt.mp hn, windowWrite_next_iff]
  | assertReset | releaseReset => simp [runAction, Forbidden, accessesWindow, HostAction.wellFormed]

/-! ## Presented tick counts -/

/-- The value written for a tick count is the smaller of it and 2^32 − 1 (40_host_bus.md R97). -/
theorem saturateTick_toNat {n : Int} (hn : 0 ≤ n) : ((saturateTick n).toNat : Int) = min n (2 ^ 32 - 1) := by
  rw [saturateTick, BitVec.toNat_ofNat, Nat.mod_eq_of_lt (by omega)]
  omega

/-- No field maximum reaches 2^32 − 1 (10_state.md R22). -/
theorem MaxOf_lt (i : Fin 11) : MaxOf i < 2 ^ 32 - 1 := by
  revert i; decide

/-- With reset released a tick count that is not negative is written to FIELD[i], saturated (40_host_bus.md R97). -/
theorem runAction_presentTick {s : State} (hr : s.resetAsserted = false) (i : Fin 11) {n : Int} (hn : 0 ≤ n) :
    runAction s (.presentTick i (some n)) =
      .next ((s.withField (s.field.set i (saturateTick n))).respond (.write .ok)) := by
  have hwrite := busWrite_of_reg (r := .field i) (by simp) rfl s (saturateTick n)
  simp only [runAction, not_lt.mpr hn, if_false, windowWrite_of_released hr, hwrite, writeReg]

/-! ## Tokens with a byte of 0x80 or more -/

/-- A byte of 0x80 or more is INVALID (30_encoding.md R68; 40_host_bus.md R94). -/
theorem dec_eq_none_of_nonAscii {b : Byte} (h : 0x80 ≤ b.toNat) : dec b = none := by
  have enc_ascii : ∀ v : Sextet, (enc v).toNat < 0x80 := by decide
  refine dec_eq_none (fun v hv => ?_) (fun hv => ?_) (fun hv => ?_) <;> subst hv
  · exact absurd (enc_ascii v) (by omega)
  · exact absurd h (by decide)
  · exact absurd h (by decide)

/-- The token check's first cause: a length other than 38 to 40 (42_decoder.md R120). -/
theorem tokenCheck_of_length (strict : Bool) (token : Vector Byte 64) {len : BitVec 16}
    (h : len.toNat < 38 ∨ 40 < len.toNat) : tokenCheck strict token len = .length :=
  if_pos h

/-- The token check's second cause: behind a good length, an INVALID byte among the first 38 (42_decoder.md R120). -/
theorem tokenCheck_of_data (strict : Bool) {token : Vector Byte 64} {len : BitVec 16} {k : Nat}
    (hlen : ¬ (len.toNat < 38 ∨ 40 < len.toNat)) (hk : k < 38) (hdec : dec token[k] = none) :
    tokenCheck strict token len = .badDataChar := by
  have hany : ((List.finRange 38).any fun i => (dec token[i.val]).isNone) = true :=
    List.any_eq_true.mpr ⟨⟨k, hk⟩, List.mem_finRange _, by simp [hdec]⟩
  simp only [tokenCheck, gt_iff_lt, hlen, if_false, hany, if_true]

/-- The token check's third cause: behind a good length, a byte from index 38 on that is no `=`, unless the data has a
fault already (42_decoder.md R120). -/
theorem tokenCheck_of_pad (strict : Bool) {token : Vector Byte 64} {len : BitVec 16} {k : Nat} (hk : k < 64)
    (hlen : ¬ (len.toNat < 38 ∨ 40 < len.toNat)) (h38 : 38 ≤ k) (hkl : k < len.toNat) (hpad : token[k] ≠ padChar) :
    tokenCheck strict token len = .badDataChar ∨ tokenCheck strict token len = .badPadChar := by
  have hany : ((List.finRange 2).any fun j => decide (38 + j.val < len.toNat) && token[38 + j.val] != padChar) = true :=
    List.any_eq_true.mpr ⟨⟨k - 38, by omega⟩, List.mem_finRange _, by simp [Nat.add_sub_cancel' h38, hkl, hpad]⟩
  simp only [tokenCheck, gt_iff_lt, hlen, if_false, hany, if_true]
  split
  · exact .inl rfl
  · exact .inr rfl

/-- The causes of a token with a byte of 0x80 or more within its length (40_host_bus.md R94; log entry 9). -/
theorem tokenCause_of_nonAscii {s : State} {k : Nat} (hk : k < 64) (hkl : k < s.tokenLen.toNat)
    (hb : 0x80 ≤ s.token[k].toNat) :
    s.tokenCause = .length ∨ s.tokenCause = .badDataChar ∨ (s.tokenCause = .badPadChar ∧ 38 ≤ k) := by
  by_cases hlen : s.tokenLen.toNat < 38 ∨ 40 < s.tokenLen.toNat
  · exact .inl (tokenCheck_of_length _ _ hlen)
  by_cases h38 : k < 38
  · exact .inr (.inl (tokenCheck_of_data _ hlen h38 (dec_eq_none_of_nonAscii hb)))
  have hpad : s.token[k] ≠ padChar := fun h => by
    rw [h] at hb
    exact absurd hb (by decide)
  exact .inr ((tokenCheck_of_pad _ hk hlen (not_lt.mp h38) hkl hpad).imp id fun h => ⟨h, not_lt.mp h38⟩)

/-- B64DEC and DECODE of a token with a cause replace STATUS alone (42_decoder.md R122, R128). -/
theorem exec_of_tokenCause {s : State} {i : Instr} (hi : i = .b64dec ∨ i = .decode)
    (hne : s.tokenCause ≠ .none) : exec i s = .next (s.raise (.format s.tokenCause)) := by
  rcases hi with rfl | rfl <;> exact exec_of_error (if_neg hne)

/-! ## The host's rounding -/

/-- The host rounds down where the remainder is at most half the divisor, and up where it is at least half of it; a tie
goes either way (40_host_bus.md R96). -/
theorem roundToNearest_cases (num : Int) (den : Nat) :
    (roundToNearest num den = num / den ∧ 2 * (num % den) ≤ den) ∨
    (roundToNearest num den = num / den + 1 ∧ den ≤ 2 * (num % den)) := by
  simp only [roundToNearest]
  split
  · exact .inl ⟨rfl, by omega⟩
  split
  · exact .inr ⟨rfl, by omega⟩
  split
  · exact .inr ⟨rfl, by omega⟩
  · exact .inl ⟨rfl, by omega⟩

/-- The host's rounding of num / den is off by at most half of den, before the division. -/
theorem roundToNearest_near (num : Int) {den : Nat} (hden : 0 < den) :
    2 * |roundToNearest num den * den - num| ≤ den := by
  have hdiv : num / den * den + num % den = num := Int.ediv_mul_add_emod num den
  have hnonneg : 0 ≤ num % den := Int.emod_nonneg _ (by omega)
  have hlt : num % den < den := Int.emod_lt_of_pos _ (by omega)
  rcases roundToNearest_cases num den with ⟨hround, hhalf⟩ | ⟨hround, hhalf⟩
  · rw [hround, show num / den * den - num = -(num % den) by omega, abs_neg, abs_of_nonneg hnonneg]
    exact hhalf
  · rw [hround, add_one_mul, show num / den * den + den - num = den - num % den by omega, abs_of_nonneg (by omega)]
    omega

/-- The host's tick count is within half a tick of 10000 times the inches (40_host_bus.md R96). -/
theorem hostTicks_near (x : Rat) : |(hostTicks x : Rat) - x * 10000| ≤ 1 / 2 := by
  have hden : (0 : Rat) < x.den := by exact_mod_cast x.pos
  have hnear : 2 * |(hostTicks x : Rat) * x.den - x.num * 10000| ≤ x.den := by
    exact_mod_cast roundToNearest_near (x.num * Config.ticksPerInch) x.pos
  have hscale : (hostTicks x : Rat) * x.den - x.num * 10000 = (hostTicks x - x * 10000) * x.den := by
    rw [sub_mul, mul_right_comm x, Rat.mul_den_eq_num]
  rw [hscale, abs_mul, abs_of_pos hden, ← mul_assoc] at hnear
  linarith [le_of_mul_le_mul_right (hnear.trans_eq (one_mul _).symm) hden]

/-- A value of exactly n ticks rounds to n: no other integer is within half a tick. -/
theorem hostTicks_eq {x : Rat} {n : Int} (h : x * 10000 = n) : hostTicks x = n := by
  have hnear := hostTicks_near x
  rw [h] at hnear
  have hlt : |(hostTicks x : Rat) - n| < 1 := hnear.trans_lt (by norm_num)
  exact sub_eq_zero.mp (Int.abs_lt_one_iff.mp (by exact_mod_cast hlt))

/-! ## The obligations -/

/-- Settles O33: the byte is INVALID and no `=`, so the check finds it at the latest where it stands. -/
theorem nonAsciiTokensAreRejected : Obligations.NonAsciiTokensAreRejected := by
  intro s k hk hkl hb
  have cause : s.tokenCause ≠ .none ∧ (s.tokenCause.code = 1#4 ∨ s.tokenCause.code = 2#4 ∨
      (s.tokenCause.code = 3#4 ∧ 38 ≤ k)) := by
    rcases tokenCause_of_nonAscii hk hkl hb with hc | hc | ⟨hc, h38⟩ <;> rw [hc]
    · exact ⟨by decide, .inl rfl⟩
    · exact ⟨by decide, .inr (.inl rfl)⟩
    · exact ⟨by decide, .inr (.inr ⟨rfl, h38⟩)⟩
  obtain ⟨hne, hcode⟩ := cause
  exact ⟨_, exec_of_tokenCause (.inl rfl) hne, exec_of_tokenCause (.inr rfl) hne, hcode⟩

/-- Settles O40: an offset is a hole of the map or a register's own, and a read shows that register. -/
theorem busReadReturnsTheRegister : Obligations.BusReadReturnsTheRegister := by
  intro s rest off hoff hr hp
  refine ⟨_, _, step_busRead hoff hr hp, fun hhole => ?_, fun hmapped => ?_,
    fun h => busRead_data (r := .cmd) h s, fun h => busRead_data (r := .status) h s, fun h => ?_,
    fun i hi h => busRead_data (r := .field ⟨i, hi⟩) h s, fun k hk h => busRead_data (r := .frameWord ⟨k, hk⟩) h s,
    fun h => ?_, fun k hk h => busRead_data (r := .tokenWord ⟨k, hk⟩) h s⟩
  · rw [busRead_of_no_reg ((regAt_eq_none_iff hoff).mpr hhole)]
    exact ⟨rfl, rfl⟩
  · obtain ⟨r, hreg⟩ := Option.ne_none_iff_exists'.mp (mt (regAt_eq_none_iff hoff).mp hmapped)
    rw [busRead_of_reg (eq_offset_of_regAt hreg)]
  · exact (busRead_data (r := .flags) h s).trans (BitVec.setWidth_eq_append (by decide))
  · exact (busRead_data (r := .tokenLen) h s).trans (BitVec.setWidth_eq_append (by decide))

/-- Settles O41: an offset is a hole of the map, CMD's, or the offset of a register that a write stores to. -/
theorem busWriteStoresTheRegister : Obligations.BusWriteStoresTheRegister := by
  intro s rest off v hoff hr hp
  rw [step_busWrite hoff hr hp]
  have store (r : Reg) (hne : r ≠ .cmd) (h : off = r.offset) := busWrite_of_reg hne h (s.withPending rest) v
  refine ⟨fun hhole => busWrite_of_no_reg ((regAt_eq_none_iff hoff).mpr hhole) _ _, fun h => ?_,
    store .status (by simp), fun h => ?_, fun i hi => store (.field ⟨i, hi⟩) (by simp), fun k hk h => ?_, fun h => ?_,
    fun k hk h => ?_⟩
  · obtain ⟨t, ht⟩ := execute_total v (s.withPending rest)
    exact ⟨t, ht, by rw [h, busWrite_cmd, ht]; rfl⟩
  · rw [← BitVec.setWidth_eq_extractLsb' (by decide)]
    exact store .flags (by simp) h
  · exact ⟨_, store (.frameWord ⟨k, hk⟩) (by simp) h, bigEndian_of_getElem (by omega) (setFrameWord_getElem _ _ v)⟩
  · rw [← BitVec.setWidth_eq_extractLsb' (by decide)]
    exact store .tokenLen (by simp) h
  · exact ⟨_, store (.tokenWord ⟨k, hk⟩) (by simp) h, bigEndian_of_getElem (by omega) (setTokenWord_getElem _ _ v)⟩

/-- Settles O44: a count is refused for what it is, or saturated, and every field maximum is below the saturation. -/
theorem presentedTickCounts : Obligations.PresentedTickCounts := by
  intro s rest i ticks hr hp
  rw [step_of_pending hp]
  refine ⟨?_, ?_, ?_⟩
  · rintro rfl
    rfl
  · rintro n rfl hn
    exact if_pos hn
  · rintro n rfl hn
    have hsat := saturateTick_toNat hn
    have hmax := MaxOf_lt i
    exact ⟨saturateTick n, runAction_presentTick (s := s.withPending rest) hr i hn, hsat, fun h => by omega⟩

/-- Settles O48: a step is its oldest action, and with none it changes nothing. -/
theorem onlyForbiddenActionsHaveNoStep : Obligations.OnlyForbiddenActionsHaveNoStep := by
  intro s
  cases hp : s.pending with
  | nil => simp [State.SafeStep, step_of_no_pending hp]
  | cons a rest =>
    have hforbidden : Forbidden (s.withPending rest) a ↔ Forbidden s a := Iff.rfl
    simp [State.SafeStep, step_of_pending hp, runAction_next_iff, hforbidden]

/-- Settles O49, by the distance of the rounding before the division. -/
theorem hostTicksAreNearest : Obligations.HostTicksAreNearest :=
  hostTicks_near

/-- Settles O50: 10000 times v / 10000 inches is exactly v ticks. -/
theorem quantizedInchesKeepTheirTicks : Obligations.QuantizedInchesKeepTheirTicks := by
  intro v
  refine hostTicks_eq ?_
  simp [hostInches]

end Sys2Proof.Machine

/-! # The encoder: the range check, the packed frame, the token

PACK and ENCODE fail in the same range check and otherwise make their writes. A frame is nine groups of three bytes and a
last byte; the four characters of a group carry its 24 bits, so the token gives the whole frame back. -/

namespace Sys2Proof.Machine

/-! ## The range check -/

/-- PACK and ENCODE have no error with every tick count in range (41_encoder.md R100, R106). -/
theorem commandError_of_inRange {i : Instr} (hi : i = .pack ∨ i = .encode) {s : State} (h : InRange s.field) :
    commandError i s = none := by
  rcases hi with rfl | rfl <;> exact if_pos ((rangeMask_eq_zero_iff_inRange s.field).mpr h)

/-- PACK and ENCODE end in a range error with a tick count out of range (41_encoder.md R100, R106). -/
theorem commandError_of_not_inRange {i : Instr} (hi : i = .pack ∨ i = .encode) {s : State} (h : ¬ InRange s.field) :
    commandError i s = some (.range (rangeMask s.field)) := by
  rcases hi with rfl | rfl <;> exact if_neg (mt (rangeMask_eq_zero_iff_inRange s.field).mp h)

/-- PACK and ENCODE with a tick count out of range change STATUS alone, to a range error with the mask of FIELD. -/
theorem exec_of_not_inRange {i : Instr} (hi : i = .pack ∨ i = .encode) {s : State} (h : ¬ InRange s.field) :
    ∃ mask, IsRangeMask s.field mask ∧ exec i s = .next { s with status := ⟨1#3, 0#4, mask⟩ } :=
  ⟨_, rangeMask_marks s.field, exec_of_error (commandError_of_not_inRange hi h)⟩

/-- A PACK in range leaves the packed frame in FRAME. -/
theorem frame_of_exec_pack {s t : State} (hr : InRange s.field) (h : exec .pack s = .next t) :
    t.frame = packFrame s.field s.flags := by
  cases (exec_of_no_error (commandError_of_inRange (.inl rfl) hr)).symm.trans h
  rfl

/-- With the other tick counts in range, the check is the one of the tick count written (41_encoder.md R101). -/
theorem inRange_set_iff {field : Vector Word 11} (h : InRange field) (i : Fin 11) (v : Word) :
    InRange (field.set i v) ↔ v.toNat ≤ MaxOf i := by
  constructor
  · intro hset
    simpa using hset i
  · intro hv j
    by_cases hij : i = j
    · subst hij; simpa using hv
    · simpa [Vector.getElem_set_ne _ _ (Fin.val_ne_of_ne hij)] using h j

/-- With the other tick counts in range, a tick count above its maximum sets its own bit of the mask and no other. -/
theorem rangeMask_set {field : Vector Word 11} (h : InRange field) {i : Fin 11} {v : Word} (hv : ¬ v.toNat ≤ MaxOf i) :
    rangeMask (field.set i v) = 1#11 <<< i.val := by
  apply BitVec.eq_of_getElem_eq
  intro k hk
  rw [show (rangeMask (field.set i v))[k] = _ from rangeMask_marks (field.set i v) ⟨k, hk⟩]
  by_cases hik : i.val = k
  · subst hik
    simpa using hv
  · have hbit : (1#11 <<< i.val)[k] = false := by
      simp only [BitVec.getElem_shiftLeft, BitVec.getElem_one, Bool.and_eq_false_imp, Bool.not_eq_true',
        decide_eq_false_iff_not]
      omega
    rw [hbit, decide_eq_false_iff_not, not_lt]
    simpa [Vector.getElem_set_ne _ _ hik] using h ⟨k, hk⟩

/-! ## The packed frame -/

/-- PACK's frame is the assignments of 41_encoder.md R100. -/
theorem packFrame_isPackedFrame (field : Vector Word 11) (flags : BitVec 2) :
    IsPackedFrame field flags (packFrame field flags) :=
  ⟨packFrame_wide field flags, packFrame_narrow field flags, packFrame_flags field flags⟩

/-- The bytes of the tick counts do not depend on FLAGS (41_encoder.md R102). -/
theorem packFrame_getElem_flags (field : Vector Word 11) (flags flags' : BitVec 2) (k : Nat) (h : k < 27) :
    (packFrame field flags)[k] = (packFrame field flags')[k] := by
  simp only [packFrame, getElem_tabulate, h, dite_true]

/-! ## The token of a frame -/

/-- A token byte of the data part is the character of its index. -/
theorem tokenBuffer_eq_enc {frame : Vector Byte 28} {k : Nat} {v : Sextet} (h : k < 38)
    (hv : (tokIndices frame)[k] = v) : (tokenBuffer frame)[k] = enc v :=
  (tokenBuffer_data frame k h).trans (congrArg enc hv)

/-- B64ENC's buffer is the assignments of 30_encoding.md R69 and 41_encoder.md R103. -/
theorem tokenBuffer_isTokenOf (frame : Vector Byte 28) : IsTokenOf frame (tokenBuffer frame) := by
  obtain ⟨h36, h37⟩ := tokIndices_last frame
  refine ⟨fun g hg => ?_, tokenBuffer_eq_enc _ h36, tokenBuffer_eq_enc _ h37, tokenBuffer_rest frame⟩
  obtain ⟨h0, h1, h2, h3⟩ := tokIndices_group frame g hg
  exact ⟨tokenBuffer_eq_enc _ h0, tokenBuffer_eq_enc _ h1, tokenBuffer_eq_enc _ h2, tokenBuffer_eq_enc _ h3⟩

/-- Every character of ENC is a letter, a digit, `-` or `_` (30_encoding.md R67). -/
theorem enc_urlSafe (v : Sextet) : ∃ c : Char, enc v = BitVec.ofNat 8 c.toNat ∧
    (('A' ≤ c ∧ c ≤ 'Z') ∨ ('a' ≤ c ∧ c ≤ 'z') ∨ ('0' ≤ c ∧ c ≤ '9') ∨ c = '-' ∨ c = '_') := by
  refine ⟨Char.ofNat (enc v).toNat, ?_⟩
  revert v
  decide

/-! ## A token gives its frame back -/

/-- The four sextets of 24 bits put together again. -/
theorem group24OfSextets_extractLsb' (x : BitVec 24) :
    group24OfSextets (x.extractLsb' 18 6) (x.extractLsb' 12 6) (x.extractLsb' 6 6) (x.extractLsb' 0 6) = x := by
  rw [group24OfSextets, BitVec.extractLsb'_append_extractLsb'_eq_extractLsb' (by decide),
    BitVec.extractLsb'_append_extractLsb'_eq_extractLsb' (by decide),
    BitVec.extractLsb'_append_extractLsb'_eq_extractLsb' (by decide), BitVec.extractLsb'_eq_self]

/-- The three bytes of a base64 group. -/
theorem extractLsb'_group24 (b0 b1 b2 : Byte) :
    (group24 b0 b1 b2).extractLsb' 16 8 = b0 ∧ (group24 b0 b1 b2).extractLsb' 8 8 = b1 ∧
    (group24 b0 b1 b2).extractLsb' 0 8 = b2 := by
  refine ⟨?_, ?_, BitVec.extractLsb'_append_eq_right⟩ <;> rw [group24, BitVec.extractLsb'_append_eq_of_le (by decide)]
  · exact BitVec.extractLsb'_append_eq_left
  · exact BitVec.extractLsb'_append_eq_right

/-- A frame is its nine groups and its last byte. -/
theorem frame_ext {F F' : Vector Byte 28}
    (hgroup : ∀ (g : Nat) (h : g < 9), F[3 * g] = F'[3 * g] ∧ F[3 * g + 1] = F'[3 * g + 1] ∧ F[3 * g + 2] = F'[3 * g + 2])
    (hlast : F[27] = F'[27]) : F = F' := by
  apply Vector.ext
  intro k hk
  by_cases h27 : k = 27
  · subst h27; exact hlast
  obtain ⟨h0, h1, h2⟩ := hgroup (k / 3) (by omega)
  rcases (by omega : k = 3 * (k / 3) ∨ k = 3 * (k / 3) + 1 ∨ k = 3 * (k / 3) + 2) with h | h | h
  · simpa only [← h] using h0
  · simpa only [← h] using h1
  · simpa only [← h] using h2

/-- The index read back from a token byte of the data part. -/
theorem sextetAt_tokenBuffer (frame : Vector Byte 28) (k : Nat) (h : k < 38) :
    sextetAt (tokenBuffer frame) k (by omega) = (tokIndices frame)[k] := by
  simp [sextetAt, tokenBuffer_data frame k h]

/-- The frame of the token of a frame is that frame. -/
theorem frm_tokenBuffer (frame : Vector Byte 28) : frm (tokenBuffer frame) = frame := by
  refine frame_ext (fun g hg => ?_) ?_
  · obtain ⟨i0, i1, i2, i3⟩ := tokIndices_group frame g hg
    have hbytes := frm_group (tokenBuffer frame) g hg
    simp (disch := omega) only [sextetAt_tokenBuffer, i0, i1, i2, i3, group24OfSextets_extractLsb'] at hbytes
    obtain ⟨b0, b1, b2⟩ := hbytes
    obtain ⟨g0, g1, g2⟩ := extractLsb'_group24 frame[3 * g] frame[3 * g + 1] frame[3 * g + 2]
    exact ⟨b0.trans g0, b1.trans g1, b2.trans g2⟩
  · obtain ⟨i36, i37⟩ := tokIndices_last frame
    rw [frm_last, sextetAt_tokenBuffer _ 36 (by decide), sextetAt_tokenBuffer _ 37 (by decide), i36, i37,
      BitVec.extractLsb'_append_eq_left, BitVec.extractLsb'_append_extractLsb'_eq_extractLsb' (by decide),
      BitVec.extractLsb'_eq_self]

/-- The frame of a token depends only on its first 38 bytes (30_encoding.md R70). -/
theorem frm_congr {T T' : Vector Byte 64} (h : ∀ (k : Nat) (hk : k < 38), T[k] = T'[k]) : frm T = frm T' := by
  have hsextet (k : Nat) (hk : k < 38) : sextetAt T k (by omega) = sextetAt T' k (by omega) := by
    simp only [sextetAt, h k hk]
  refine frame_ext (fun g hg => ?_) ?_
  · have hbytes := frm_group T g hg
    simp (disch := omega) only [hsextet] at hbytes
    obtain ⟨b0, b1, b2⟩ := hbytes
    obtain ⟨b0', b1', b2'⟩ := frm_group T' g hg
    exact ⟨b0.trans b0'.symm, b1.trans b1'.symm, b2.trans b2'.symm⟩
  · rw [frm_last, frm_last, hsextet 36 (by decide), hsextet 37 (by decide)]

/-! ## The obligations -/

/-- Settles O10: the range check decides, and PACK's frame is the one of R100. -/
theorem packPacksOrRejects : Obligations.PackPacksOrRejects :=
  ⟨decode_encode .pack, fun s =>
    ⟨fun h => ⟨_, packFrame_isPackedFrame s.field s.flags, exec_of_no_error (commandError_of_inRange (.inl rfl) h)⟩,
      exec_of_not_inRange (.inl rfl)⟩⟩

/-- Settles O11: B64ENC has no error, and its buffer is the one of R103. -/
theorem b64encWritesTheToken : Obligations.B64encWritesTheToken :=
  ⟨decode_encode .b64enc, fun s => ⟨_, tokenBuffer_isTokenOf s.frame, exec_of_no_error rfl⟩⟩

/-- Settles O12: the range check decides, and the token is the one of the frame just packed. -/
theorem encodeEncodesOrRejects : Obligations.EncodeEncodesOrRejects :=
  ⟨decode_encode .encode, fun s =>
    ⟨fun h => ⟨_, _, packFrame_isPackedFrame s.field s.flags, tokenBuffer_isTokenOf _,
        exec_of_no_error (commandError_of_inRange (.inr rfl) h)⟩,
      exec_of_not_inRange (.inr rfl)⟩⟩

/-- Settles O23: the tick count written is the only one that can be out of range. -/
theorem fieldLimitsAreExact : Obligations.FieldLimitsAreExact := by
  intro s i v hrange
  have hset := inRange_set_iff hrange i v
  by_cases hv : v.toNat ≤ MaxOf i
  · refine ⟨_, exec_of_no_error (commandError_of_inRange (.inl rfl) (hset.mpr hv)), ?_⟩
    simp [hv, Status.ok]
  · refine ⟨_, exec_of_error (commandError_of_not_inRange (.inl rfl) (mt hset.mp hv)), ?_⟩
    simp [hv, CommandError.status, rangeMask_set hrange hv]

/-- Settles O24: the bytes of a packed frame below the flags byte are those of FIELD, and the last is that of FLAGS. -/
theorem flagsChangeOnlyTheLastByte : Obligations.FlagsChangeOnlyTheLastByte := by
  intro s t s' t' hs ht hs' ht'
  have hsframe := frame_of_exec_pack hs hs'
  have htframe := frame_of_exec_pack ht ht'
  refine ⟨fun hfield k hk => ?_, fun hflags => ?_⟩
  · simp only [hsframe, htframe, hfield]
    exact packFrame_getElem_flags t.field s.flags t.flags k hk
  · simp only [hsframe, htframe, packFrame_flags, packFrame_flags, hflags]

/-- Settles O25: each of the 38 characters is the character of an index. -/
theorem tokensAreUrlSafe : Obligations.TokensAreUrlSafe := by
  intro s
  refine ⟨_, exec_of_no_error rfl, rfl, fun k hk => ?_⟩
  obtain ⟨c, hc, hsafe⟩ := enc_urlSafe (tokIndices s.frame)[k]
  exact ⟨c, (tokenBuffer_data s.frame k hk).trans hc, hsafe⟩

/-- Settles O26: two tokens with the same 38 characters give back the same frame. -/
theorem differentFramesGiveDifferentTokens : Obligations.DifferentFramesGiveDifferentTokens := by
  rintro s t s' t' ⟨⟩ ⟨⟩ hne
  by_contra hsame
  push Not at hsame
  refine hne ?_
  calc s.frame
      = frm (tokenBuffer s.frame) := (frm_tokenBuffer s.frame).symm
    _ = frm (tokenBuffer t.frame) := frm_congr hsame
    _ = t.frame := frm_tokenBuffer t.frame

/-- Settles O28: the two commands share the range check, and in range ENCODE makes B64ENC's writes after PACK's. -/
theorem encodeIsPackThenB64enc : Obligations.EncodeIsPackThenB64enc := by
  intro s
  by_cases hr : InRange s.field
  · refine ⟨_, exec_of_no_error (commandError_of_inRange (.inl rfl) hr), fun _ => ?_, fun herr => absurd rfl herr⟩
    exact exec_of_no_error (commandError_of_inRange (.inr rfl) hr)
  · refine ⟨_, exec_of_error (commandError_of_not_inRange (.inl rfl) hr), fun hok => ?_, fun _ => ?_⟩
    · exact absurd hok (CommandError.status_err_ne_zero _)
    · exact exec_of_error (commandError_of_not_inRange (.inr rfl) hr)

end Sys2Proof.Machine

/-! # The decoder: the token check, the decoded frame, the unpacked tick counts

The four checks of 42_decoder.md R120 run in a fixed order, so exactly one cause applies in each state, and it decides
what B64DEC and DECODE do. -/

namespace Sys2Proof.Machine

/-! ## The token check -/

/-- The length check of the model is the one of 42_decoder.md R120. -/
theorem lengthOk_iff (s : State) : LengthOk s ↔ ¬ (s.tokenLen.toNat < 38 ∨ 40 < s.tokenLen.toNat) := by
  unfold LengthOk
  omega

/-- Behind a good length, a byte among the first 38 that is INVALID gives BAD_DATA_CHAR (42_decoder.md R120). -/
theorem tokenCause_of_not_dataOk {s : State} (hlen : LengthOk s) (h : ¬ DataOk s) : s.tokenCause = .badDataChar := by
  unfold DataOk at h
  push Not at h
  obtain ⟨k, hk, hdec⟩ := h
  exact tokenCheck_of_data _ ((lengthOk_iff s).mp hlen) hk hdec

/-- A length other than 38 to 40 gives LENGTH (42_decoder.md R120). -/
theorem tokenCause_of_not_lengthOk {s : State} (h : ¬ LengthOk s) : s.tokenCause = .length :=
  tokenCheck_of_length _ _ (not_not.mp (mt (lengthOk_iff s).mpr h))

/-- Once a token's length and characters are good, only its padding and its pad bits are left to check. -/
theorem tokenCause_of_dataOk {s : State} (hlen : LengthOk s) (hdata : DataOk s) :
    s.tokenCause =
      if (List.finRange 2).any fun j => decide (38 + j.val < s.tokenLen.toNat) && s.token[38 + j.val] != padChar
      then .badPadChar
      else if s.config.strictPadBits && (sextetAt s.token 37 (by omega)).extractLsb' 0 4 != 0#4 then .padBits
      else .none := by
  have hlen' := (lengthOk_iff s).mp hlen
  have hany : ((List.finRange 38).any fun i => (dec s.token[i.val]).isNone) = false :=
    List.any_eq_false.mpr fun i _ => by simpa using hdata i.val i.isLt
  simp only [State.tokenCause, tokenCheck, gt_iff_lt, hlen', hany, if_false, Bool.false_eq_true]

/-- The padding check of the model is the one of 42_decoder.md R120. -/
theorem any_badPad_eq_false_iff {s : State} (hlen : LengthOk s) :
    ((List.finRange 2).any fun j => decide (38 + j.val < s.tokenLen.toNat) && s.token[38 + j.val] != padChar) = false ↔
      PadOk s := by
  obtain ⟨-, hle⟩ := hlen
  rw [List.any_eq_false]
  constructor
  · intro h i hi h38 hlt
    obtain ⟨j, rfl⟩ := Nat.exists_eq_add_of_le h38
    simpa [hlt, padChar] using h ⟨j, by omega⟩ (List.mem_finRange _)
  · intro h j _
    by_cases hlt : 38 + j.val < s.tokenLen.toNat
    · simp [h _ (by omega) (by omega) hlt, padChar]
    · simp [hlt]

/-- A valid token byte is read as its index. -/
theorem sextetAt_of_dec {T : Vector Byte 64} {k : Nat} {v : Sextet} {h : k < 64} (hv : dec T[k] = some v) :
    sextetAt T k h = v := by
  simp [sextetAt, hv]

/-- A token byte that is not INVALID decodes to the index read from it. -/
theorem dec_eq_some_sextetAt {T : Vector Byte 64} {k : Nat} (h : k < 64) (hne : dec T[k] ≠ none) :
    dec T[k] = some (sextetAt T k h) := by
  obtain ⟨v, hv⟩ := Option.ne_none_iff_exists'.mp hne
  rw [sextetAt_of_dec hv, hv]

/-- The pad bits check is about the index of character 37. -/
theorem padBitsOk_iff {s : State} (hdata : DataOk s) :
    PadBitsOk s ↔ (s.config.strictPadBits = true → (sextetAt s.token 37 (by omega)).extractLsb' 0 4 = 0#4) := by
  simp [PadBitsOk, dec_eq_some_sextetAt (by omega) (hdata 37 (by omega))]

/-- A cause that applies is the one the model's check gives. -/
theorem tokenCause_of_causeApplies {s : State} {c : FmtCause} (h : CauseApplies s c) : s.tokenCause = c := by
  cases c with
  | length => exact tokenCause_of_not_lengthOk h
  | badDataChar =>
    obtain ⟨hlen, hdata⟩ := h
    exact tokenCause_of_not_dataOk hlen hdata
  | badPadChar =>
    obtain ⟨hlen, hdata, hpad⟩ := h
    rw [tokenCause_of_dataOk hlen hdata, if_pos]
    exact Bool.not_eq_false _ ▸ mt (any_badPad_eq_false_iff hlen).mp hpad
  | padBits =>
    obtain ⟨hlen, hdata, hpad, hbits⟩ := h
    rw [tokenCause_of_dataOk hlen hdata, (any_badPad_eq_false_iff hlen).mpr hpad]
    simpa [padBitsOk_iff hdata] using hbits
  | none =>
    obtain ⟨hlen, hdata, hpad, hbits⟩ := h
    rw [tokenCause_of_dataOk hlen hdata, (any_badPad_eq_false_iff hlen).mpr hpad]
    simpa [padBitsOk_iff hdata] using hbits

/-- In every state some cause applies. -/
theorem exists_causeApplies (s : State) : ∃ c, CauseApplies s c := by
  by_cases hlen : LengthOk s
  case neg => exact ⟨.length, hlen⟩
  by_cases hdata : DataOk s
  case neg => exact ⟨.badDataChar, hlen, hdata⟩
  by_cases hpad : PadOk s
  case neg => exact ⟨.badPadChar, hlen, hdata, hpad⟩
  by_cases hbits : PadBitsOk s
  case neg => exact ⟨.padBits, hlen, hdata, hpad, hbits⟩
  exact ⟨.none, hlen, hdata, hpad, hbits⟩

/-- The model's check gives exactly the cause that applies (42_decoder.md R120). -/
theorem tokenCause_eq_iff (s : State) (c : FmtCause) : s.tokenCause = c ↔ CauseApplies s c := by
  refine ⟨fun h => ?_, tokenCause_of_causeApplies⟩
  obtain ⟨c', hc'⟩ := exists_causeApplies s
  rwa [← h, tokenCause_of_causeApplies hc']

/-- A cause other than none has its non-zero code (10_state.md R29). -/
theorem FmtCause.code_ne_zero {c : FmtCause} (h : c ≠ .none) : c.code ≠ 0#4 := by
  cases c <;> simp_all [FmtCause.code]

/-- B64DEC and DECODE have no error when no cause applies (42_decoder.md R122, R128). -/
theorem commandError_of_tokenCause_none {i : Instr} (hi : i = .b64dec ∨ i = .decode) {s : State}
    (h : s.tokenCause = .none) : commandError i s = none := by
  rcases hi with rfl | rfl <;> exact if_pos h

/-- The four codes of 10_state.md R29 are the model's. -/
theorem FmtCause.code_of_mem {c : FmtCause} {n : BitVec 4}
    (h : (c, n) ∈ [(FmtCause.length, 1#4), (.badDataChar, 2#4), (.badPadChar, 3#4), (.padBits, 4#4)]) :
    c ≠ .none ∧ c.code = n := by
  cases c <;> simp_all [FmtCause.code]

/-- B64DEC and DECODE change STATUS alone when a cause applies, to a format error with the cause's code. -/
theorem exec_of_causeApplies {i : Instr} (hi : i = .b64dec ∨ i = .decode) {s : State} {c : FmtCause} {n : BitVec 4}
    (hcode : (c, n) ∈ [(FmtCause.length, 1#4), (.badDataChar, 2#4), (.badPadChar, 3#4), (.padBits, 4#4)])
    (h : CauseApplies s c) : exec i s = .next { s with status := ⟨2#3, n, 0#11⟩ } := by
  obtain ⟨hne, rfl⟩ := FmtCause.code_of_mem hcode
  cases (tokenCause_eq_iff s c).mpr h
  exact exec_of_tokenCause hi hne

/-- TOKEN bytes at TOKEN_LEN and above do not enter the token check. -/
theorem tokenCause_withToken {s : State} {T : Vector Byte 64}
    (h : ∀ (k : Nat) (_ : k < 64), k < s.tokenLen.toNat → T[k] = s.token[k]) :
    (s.withToken T).tokenCause = s.tokenCause := by
  by_cases hlen : LengthOk s
  case neg => exact (tokenCause_of_not_lengthOk (s := s.withToken T) hlen).trans (tokenCause_of_not_lengthOk hlen).symm
  have hdataEq (k : Nat) (hk : k < 38) : T[k] = s.token[k] := h k (by omega) (by have := hlen.1; omega)
  have hdata : DataOk (s.withToken T) ↔ DataOk s := forall₂_congr fun k hk => by simp [hdataEq k hk]
  have hpad : PadOk (s.withToken T) ↔ PadOk s := forall₄_congr fun k hk _ hkl => by simp [h k hk hkl]
  have hbits : PadBitsOk (s.withToken T) ↔ PadBitsOk s := by simp [PadBitsOk, hdataEq 37]
  have hlen' : LengthOk (s.withToken T) ↔ LengthOk s := Iff.rfl
  refine (tokenCause_eq_iff _ _).mpr ?_
  have happlies := (tokenCause_eq_iff s _).mp rfl
  generalize s.tokenCause = c at happlies ⊢
  cases c <;> simpa only [CauseApplies, hlen', hdata, hpad, hbits] using happlies

/-! ## The decoded frame -/

/-- B64DEC and DECODE write the same registers for two tokens of the same frame. -/
theorem commandWrites_withToken {i : Instr} (hi : i = .b64dec ∨ i = .decode) {s : State} {T : Vector Byte 64}
    (hframe : frm T = frm s.token) : commandWrites i (s.withToken T) = (commandWrites i s).withToken T := by
  have hwrites : (s.withToken T).writeDecodedFrame = s.writeDecodedFrame.withToken T :=
    congrArg (s.withToken T).withFrame hframe
  rcases hi with rfl | rfl
  · exact hwrites
  · exact congrArg State.writeUnpacked hwrites

/-- The frame of a valid token is the assignments of 30_encoding.md R70. -/
theorem frm_isFrameOf {s : State} (hc : s.tokenCause = .none) : IsFrameOf s.token (frm s.token) := by
  obtain ⟨-, hdata, -, -⟩ := (tokenCause_eq_iff s .none).mp hc
  refine ⟨tabulate fun k => sextetAt s.token k.val (by omega), fun k hk => ?_, fun g hg => ?_, ?_⟩
  · simpa using dec_eq_some_sextetAt (by omega) (hdata k hk)
  · simpa [group24OfSextets] using frm_group s.token g hg
  · simpa using frm_last s.token

/-! ## The unpacked tick counts -/

/-- UNPACK's registers are the assignments of 42_decoder.md R125. -/
theorem unpack_isUnpacked (F : Vector Byte 28) : IsUnpacked F (unpackFields F) (unpackFlags F) :=
  ⟨unpackFields_wide F, unpackFields_narrow F, rfl⟩

/-! ## The obligations -/

/-- Settles O13: in every state exactly one cause applies, and it is the one the check gives. -/
theorem tokenCheckGivesTheFirstCause : Obligations.TokenCheckGivesTheFirstCause :=
  tokenCause_eq_iff

/-- Settles O14: the token check decides, and B64DEC's frame is the one of R70. -/
theorem b64decDecodesOrRejects : Obligations.B64decDecodesOrRejects :=
  ⟨decode_encode .b64dec, fun _ =>
    ⟨fun h =>
      have hc := tokenCause_of_causeApplies h
      ⟨_, frm_isFrameOf hc, exec_of_no_error (commandError_of_tokenCause_none (.inl rfl) hc)⟩,
      fun _ _ => exec_of_causeApplies (.inl rfl)⟩⟩

/-- Settles O15: UNPACK has no error, and its registers are those of R125. -/
theorem unpackWritesFieldsAndFlags : Obligations.UnpackWritesFieldsAndFlags :=
  ⟨decode_encode .unpack, fun _ => ⟨_, _, unpack_isUnpacked _, exec_of_no_error rfl⟩⟩

/-- Settles O16: the token check decides, and the registers are those that R125 gives for the frame just decoded. -/
theorem decodeDecodesOrRejects : Obligations.DecodeDecodesOrRejects :=
  ⟨decode_encode .decode, fun _ =>
    ⟨fun h =>
      have hc := tokenCause_of_causeApplies h
      ⟨_, _, _, frm_isFrameOf hc, unpack_isUnpacked _,
        exec_of_no_error (commandError_of_tokenCause_none (.inr rfl) hc)⟩,
      fun _ _ => exec_of_causeApplies (.inr rfl)⟩⟩

/-- Settles O29: the two commands share the token check, and without a cause DECODE makes UNPACK's writes after
B64DEC's. -/
theorem decodeIsB64decThenUnpack : Obligations.DecodeIsB64decThenUnpack := by
  intro s
  by_cases hc : s.tokenCause = .none
  · refine ⟨_, exec_of_no_error (commandError_of_tokenCause_none (.inl rfl) hc), fun _ => ?_,
      fun herr => absurd rfl herr⟩
    exact exec_of_no_error (commandError_of_tokenCause_none (.inr rfl) hc)
  · refine ⟨_, exec_of_tokenCause (.inl rfl) hc, fun hok => ?_, fun _ => ?_⟩
    · exact absurd hok (CommandError.status_err_ne_zero _)
    · exact exec_of_tokenCause (.inr rfl) hc

/-- Settles O32: a token of good length is checked and decoded below its length only. -/
theorem tokenBytesBeyondTheLengthAreIgnored : Obligations.TokenBytesBeyondTheLengthAreIgnored := by
  intro i s t T hi hT hs
  have hcause := tokenCause_withToken hT
  by_cases hc : s.tokenCause = .none
  · obtain ⟨hlen, -, -, -⟩ := (tokenCause_eq_iff s .none).mp hc
    have hframe : frm T = frm s.token := frm_congr fun k hk => hT k (by omega) (by have := hlen.1; omega)
    cases (exec_of_no_error (commandError_of_tokenCause_none hi hc)).symm.trans hs
    have hexec := exec_of_no_error (commandError_of_tokenCause_none hi (hcause.trans hc))
    rwa [commandWrites_withToken hi hframe] at hexec
  · cases (exec_of_tokenCause hi hc).symm.trans hs
    rw [← hcause] at hc ⊢
    exact exec_of_tokenCause hi hc

end Sys2Proof.Machine

/-! # The decoder and the encoder: the spellings of a token, UNPACK and PACK, the round trips

A token decodes to a frame F exactly when its 38 indices are those of F's token, the pad bits of the last one aside; the
tick counts that UNPACK takes from a frame are the ones PACK puts there, and the other way round for counts in range. -/

namespace Sys2Proof.Machine

/-! ## The indices of a frame's token -/

/-- What holds of the four characters of every group and of the last two characters holds of all 38. -/
theorem forall_data_index {P : (k : Nat) → k < 38 → Prop}
    (hgroup : ∀ (g : Nat) (h : g < 9), P (4 * g) (by omega) ∧ P (4 * g + 1) (by omega) ∧ P (4 * g + 2) (by omega) ∧
      P (4 * g + 3) (by omega))
    (h36 : P 36 (by omega)) (h37 : P 37 (by omega)) (k : Nat) (hk : k < 38) : P k hk := by
  by_cases hlast : 36 ≤ k
  · obtain rfl | rfl : k = 36 ∨ k = 37 := by omega
    · exact h36
    · exact h37
  obtain ⟨h0, h1, h2, h3⟩ := hgroup (k / 4) (by omega)
  rcases (by omega : k = 4 * (k / 4) ∨ k = 4 * (k / 4) + 1 ∨ k = 4 * (k / 4) + 2 ∨ k = 4 * (k / 4) + 3)
    with h | h | h | h
  · simpa only [← h] using h0
  · simpa only [← h] using h1
  · simpa only [← h] using h2
  · simpa only [← h] using h3

/-- The four sextets of a base64 group. -/
theorem extractLsb'_group24OfSextets (v0 v1 v2 v3 : Sextet) :
    (group24OfSextets v0 v1 v2 v3).extractLsb' 18 6 = v0 ∧ (group24OfSextets v0 v1 v2 v3).extractLsb' 12 6 = v1 ∧
    (group24OfSextets v0 v1 v2 v3).extractLsb' 6 6 = v2 ∧ (group24OfSextets v0 v1 v2 v3).extractLsb' 0 6 = v3 := by
  refine ⟨?_, ?_, ?_, BitVec.extractLsb'_append_eq_right⟩ <;>
    rw [group24OfSextets, BitVec.extractLsb'_append_eq_of_le (by decide)]
  · rw [BitVec.extractLsb'_append_eq_of_le (by decide)]
    exact BitVec.extractLsb'_append_eq_left
  · rw [BitVec.extractLsb'_append_eq_of_le (by decide)]
    exact BitVec.extractLsb'_append_eq_right
  · exact BitVec.extractLsb'_append_eq_right

/-- The three bytes of 24 bits put together again. -/
theorem group24_extractLsb'_self (x : BitVec 24) :
    group24 (x.extractLsb' 16 8) (x.extractLsb' 8 8) (x.extractLsb' 0 8) = x := by
  rw [group24, BitVec.extractLsb'_append_extractLsb'_eq_extractLsb' (by decide),
    BitVec.extractLsb'_append_extractLsb'_eq_extractLsb' (by decide), BitVec.extractLsb'_eq_self]

/-- A token decodes to F exactly when its indices are those of F's token, the pad bits of index 37 aside
(30_encoding.md R69, R70). -/
theorem frm_eq_iff (T : Vector Byte 64) (F : Vector Byte 28) :
    frm T = F ↔ (∀ (k : Nat) (h : k < 37), sextetAt T k (by omega) = (tokIndices F)[k]) ∧
      (sextetAt T 37 (by omega)).extractLsb' 4 2 = F[27].extractLsb' 0 2 := by
  constructor
  · rintro rfl
    obtain ⟨i36, -⟩ := tokIndices_last (frm T)
    rw [frm_last, BitVec.extractLsb'_append_eq_left] at i36
    refine ⟨fun k hk => ?_, by rw [frm_last, BitVec.extractLsb'_append_eq_right]⟩
    refine forall_data_index (P := fun k hk => k < 37 → sextetAt T k (by omega) = (tokIndices (frm T))[k])
      (fun g hg => ?_) (fun _ => i36.symm) (fun h => absurd h (by decide)) k (by omega) hk
    obtain ⟨i0, i1, i2, i3⟩ := tokIndices_group (frm T) g hg
    obtain ⟨b0, b1, b2⟩ := frm_group T g hg
    rw [b0, b1, b2, group24_extractLsb'_self] at i0 i1 i2 i3
    obtain ⟨v0, v1, v2, v3⟩ := extractLsb'_group24OfSextets (sextetAt T (4 * g) (by omega))
      (sextetAt T (4 * g + 1) (by omega)) (sextetAt T (4 * g + 2) (by omega)) (sextetAt T (4 * g + 3) (by omega))
    exact ⟨fun _ => (i0.trans v0).symm, fun _ => (i1.trans v1).symm, fun _ => (i2.trans v2).symm,
      fun _ => (i3.trans v3).symm⟩
  · rintro ⟨hidx, h37⟩
    have hidx' (k : Nat) (hk : k < 37) : sextetAt T k (by omega) = sextetAt (tokenBuffer F) k (by omega) :=
      (hidx k hk).trans (sextetAt_tokenBuffer F k (by omega)).symm
    obtain ⟨-, i37⟩ := tokIndices_last F
    refine (frame_ext (fun g hg => ?_) ?_).trans (frm_tokenBuffer F)
    · obtain ⟨b0, b1, b2⟩ := frm_group T g hg
      obtain ⟨c0, c1, c2⟩ := frm_group (tokenBuffer F) g hg
      simp (disch := omega) only [b0, b1, b2, c0, c1, c2, hidx', and_self]
    · rw [frm_last, frm_last, hidx' 36 (by decide), h37, sextetAt_tokenBuffer F 37 (by decide), i37,
        BitVec.extractLsb'_append_eq_left]

/-! ## The spellings of a token -/

/-- A byte's URL-safe spelling is the character of index v exactly when the byte decodes to v (42_decoder.md R124). -/
theorem urlSafeSpelling_eq_enc_iff (b : Byte) (v : Sextet) : urlSafeSpelling b = enc v ↔ dec b = some v := by
  have dec_spelling : dec (urlSafeSpelling b) = dec b := by
    unfold urlSafeSpelling
    split
    · rw [‹b = 0x2B#8›]; decide
    split
    · rw [‹b = 0x2F#8›]; decide
    · rfl
  have spelling_enc : ∀ v : Sextet, urlSafeSpelling (enc v) = enc v := by decide
  constructor
  · intro h
    rw [← dec_spelling, h, dec_enc]
  · rw [dec_eq_some_iff]
    rintro (rfl | ⟨rfl, rfl⟩ | ⟨rfl, rfl⟩)
    · exact spelling_enc v
    · decide
    · decide

/-- The 38 characters of F's token are those of its indices, in every buffer that holds it. -/
theorem IsTokenOf.getElem_eq_enc {F : Vector Byte 28} {T : Vector Byte 64} (h : IsTokenOf F T) :
    ∀ (k : Nat) (hk : k < 38), T[k] = enc (tokIndices F)[k] := by
  obtain ⟨hgroup, h36, h37, -⟩ := h
  obtain ⟨i36, i37⟩ := tokIndices_last F
  refine forall_data_index (fun g hg => ?_) (by rw [h36, i36]) (by rw [h37, i37])
  obtain ⟨c0, c1, c2, c3⟩ := hgroup g hg
  obtain ⟨i0, i1, i2, i3⟩ := tokIndices_group F g hg
  rw [c0, c1, c2, c3, i0, i1, i2, i3]
  exact ⟨rfl, rfl, rfl, rfl⟩

/-- A state spells F's token when its padding is good and its characters decode to the token's indices, the pad bits of
index 37 aside (42_decoder.md R124). -/
theorem spells_iff (s : State) (F : Vector Byte 28) :
    Spells s F ↔ LengthOk s ∧ PadOk s ∧ (∀ (k : Nat) (h : k < 37), dec s.token[k] = some (tokIndices F)[k]) ∧
      ∃ p : BitVec 4, dec s.token[37] = some (F[27].extractLsb' 0 2 ++ p) ∧
        (s.config.strictPadBits = true → p = 0#4) := by
  simp only [Spells, urlSafeSpelling_eq_enc_iff]
  refine and_congr_right fun _ => and_congr_right fun _ => and_congr_left fun _ => ?_
  constructor
  · rintro ⟨T, hT, hspell⟩ k hk
    rw [← urlSafeSpelling_eq_enc_iff, hspell k hk, hT.getElem_eq_enc k (by omega)]
  · intro hdec
    refine ⟨tokenBuffer F, tokenBuffer_isTokenOf F, fun k hk => ?_⟩
    rw [tokenBuffer_data F k (by omega), urlSafeSpelling_eq_enc_iff, hdec k hk]

/-- The token check passes with frame F exactly on the spellings of F's token (42_decoder.md R124). -/
theorem tokenCause_none_and_frm_iff_spells (s : State) (F : Vector Byte 28) :
    s.tokenCause = .none ∧ frm s.token = F ↔ Spells s F := by
  rw [tokenCause_eq_iff, frm_eq_iff, spells_iff]
  constructor
  · rintro ⟨⟨hlen, hdata, hpad, hbits⟩, hidx, h37⟩
    refine ⟨hlen, hpad, fun k hk => ?_, (sextetAt s.token 37 (by omega)).extractLsb' 0 4, ?_,
      (padBitsOk_iff hdata).mp hbits⟩
    · rw [dec_eq_some_sextetAt (by omega) (hdata k (by omega)), hidx k hk]
    · rw [dec_eq_some_sextetAt (by omega) (hdata 37 (by omega)), ← h37,
        BitVec.extractLsb'_append_extractLsb'_eq_extractLsb' (by decide), BitVec.extractLsb'_eq_self]
  · rintro ⟨hlen, hpad, hdec, p, h37, hstrict⟩
    have hdata : DataOk s := fun k hk => by
      by_cases hk' : k < 37
      · simp [hdec k hk']
      · obtain rfl : k = 37 := by omega
        simp [h37]
    refine ⟨⟨hlen, hdata, hpad, (padBitsOk_iff hdata).mpr fun hs => ?_⟩, fun k hk => sextetAt_of_dec (hdec k hk), ?_⟩
    · rw [sextetAt_of_dec h37, BitVec.extractLsb'_append_eq_right, hstrict hs]
    · rw [sextetAt_of_dec h37, BitVec.extractLsb'_append_eq_left]

/-- B64DEC ends OK with FRAME = F exactly when the token is valid and decodes to F. -/
theorem exec_b64dec_ok_iff (s : State) (F : Vector Byte 28) :
    exec .b64dec s = .next { s with frame := F, status := ⟨0#3, 0#4, 0#11⟩ } ↔
      s.tokenCause = .none ∧ frm s.token = F := by
  by_cases hc : s.tokenCause = .none
  · rw [exec_of_no_error (commandError_of_tokenCause_none (.inl rfl) hc), Host.Outcome.next.injEq]
    constructor
    · intro h
      exact ⟨hc, congrArg State.frame h⟩
    · rintro ⟨-, rfl⟩
      rfl
  · rw [exec_of_tokenCause (.inl rfl) hc, Host.Outcome.next.injEq]
    refine iff_of_false (fun h => ?_) (fun h => hc h.1)
    exact CommandError.status_err_ne_zero _ (congrArg (·.status.err) h)

/-- TOKEN and TOKEN_LEN after a B64ENC of F spell F's token, whatever P_STRICT_PAD_BITS is. -/
theorem spells_of_token_eq {s : State} {F : Vector Byte 28} (htoken : s.token = tokenBuffer F)
    (hlen : s.tokenLen = 38#16) : Spells s F := by
  obtain ⟨-, i37⟩ := tokIndices_last F
  refine (spells_iff s F).mpr ⟨by simp [LengthOk, hlen], fun k _ h38 hkl => ?_, fun k hk => ?_, 0#4, ?_, fun _ => rfl⟩
  · have hk38 : k < 38 := by simpa [hlen] using hkl
    omega
  · simp only [htoken, tokenBuffer_data F k (by omega), dec_enc]
  · simp only [htoken, tokenBuffer_data F 37 (by omega), dec_enc, i37]

/-! ## UNPACK and PACK -/

/-- What holds of the bytes of every wide and of every narrow tick count holds of the first 27 bytes of a frame. -/
theorem forall_tick_byte {P : (k : Nat) → k < 27 → Prop}
    (hwide : ∀ (i : Nat) (h : i < 5), P (3 * i) (by omega) ∧ P (3 * i + 1) (by omega) ∧ P (3 * i + 2) (by omega))
    (hnarrow : ∀ (j : Nat) (h : j < 6), P (15 + 2 * j) (by omega) ∧ P (16 + 2 * j) (by omega))
    (k : Nat) (hk : k < 27) : P k hk := by
  by_cases h15 : k < 15
  · obtain ⟨h0, h1, h2⟩ := hwide (k / 3) (by omega)
    rcases (by omega : k = 3 * (k / 3) ∨ k = 3 * (k / 3) + 1 ∨ k = 3 * (k / 3) + 2) with h | h | h
    · simpa only [← h] using h0
    · simpa only [← h] using h1
    · simpa only [← h] using h2
  · obtain ⟨h0, h1⟩ := hnarrow ((k - 15) / 2) (by omega)
    rcases (by omega : k = 15 + 2 * ((k - 15) / 2) ∨ k = 16 + 2 * ((k - 15) / 2)) with h | h
    · simpa only [← h] using h0
    · simpa only [← h] using h1

/-- What holds of every wide and of every narrow field holds of all eleven. -/
theorem forall_field {P : (k : Nat) → k < 11 → Prop} (hwide : ∀ (i : Nat) (h : i < 5), P i (by omega))
    (hnarrow : ∀ (j : Nat) (h : j < 6), P (5 + j) (by omega)) (k : Nat) (hk : k < 11) : P k hk := by
  by_cases h5 : k < 5
  · exact hwide k h5
  · obtain ⟨j, rfl⟩ := Nat.exists_eq_add_of_le (not_lt.mp h5)
    exact hnarrow j (by omega)

/-- The tick counts of a frame do not depend on its last byte (42_decoder.md R125, R126). -/
theorem unpackFields_set_last (F : Vector Byte 28) (b : Byte) : unpackFields (F.set 27 b) = unpackFields F := by
  refine Vector.ext (forall_field (fun i hi => ?_) fun j hj => ?_)
  · simp (disch := omega) only [unpackFields_wide, Vector.getElem_set_ne]
  · simp (disch := omega) only [unpackFields_narrow, Vector.getElem_set_ne]

/-- A tick count of a frame is at most its field's maximum (42_decoder.md R127). -/
theorem unpackFields_inRange (F : Vector Byte 28) : InRange (unpackFields F) := by
  have hbound := forall_field (P := fun k hk => (unpackFields F)[k].toNat ≤ MaxOf ⟨k, hk⟩)
    (fun i hi => ?_) (fun j hj => ?_)
  · exact fun i => hbound i.val i.isLt
  · rw [unpackFields_wide F i hi, MaxOf, if_pos hi, BitVec.toNat_setWidth_of_le (by decide)]
    exact Nat.le_of_lt_succ (BitVec.isLt _)
  · rw [unpackFields_narrow F j hj, MaxOf, if_neg (by simp), BitVec.toNat_setWidth_of_le (by decide)]
    exact Nat.le_of_lt_succ (BitVec.isLt _)

/-- PACK puts the tick counts of a frame back where they were (42_decoder.md R127). -/
theorem packFrame_unpackFields (F : Vector Byte 28) (flags : BitVec 2) :
    ∀ (k : Nat) (h : k < 27), (packFrame (unpackFields F) flags)[k] = F[k] := by
  refine forall_tick_byte (fun i hi => ?_) fun j hj => ?_
  · obtain ⟨h0, h1, h2⟩ := packFrame_wide (unpackFields F) flags i hi
    obtain ⟨b0, b1, b2⟩ := extractLsb'_group24 F[3 * i] F[3 * i + 1] F[3 * i + 2]
    rw [unpackFields_wide F i hi, BitVec.extractLsb'_setWidth_of_le (by decide)] at h0 h1 h2
    exact ⟨h0.trans b0, h1.trans b1, h2.trans b2⟩
  · obtain ⟨h0, h1⟩ := packFrame_narrow (unpackFields F) flags j hj
    rw [unpackFields_narrow F j hj, BitVec.extractLsb'_setWidth_of_le (by decide)] at h0 h1
    exact ⟨h0.trans BitVec.extractLsb'_append_eq_left, h1.trans BitVec.extractLsb'_append_eq_right⟩

/-- The low n bits of a word below 2^n, zero-extended, are the word. -/
theorem setWidth_extractLsb'_of_lt {v : Word} {n : Nat} (h : v.toNat < 2 ^ n) :
    (v.extractLsb' 0 n).setWidth 32 = v := by
  apply BitVec.eq_of_toNat_eq
  rw [BitVec.toNat_setWidth, BitVec.extractLsb'_toNat, Nat.shiftRight_zero, Nat.mod_eq_of_lt h, Nat.mod_eq_of_lt v.isLt]

/-- UNPACK takes from a packed frame the tick counts PACK put there, when they are in range (42_decoder.md R129). -/
theorem unpackFields_packFrame {field : Vector Word 11} (flags : BitVec 2) (h : InRange field) :
    unpackFields (packFrame field flags) = field := by
  refine Vector.ext (forall_field (fun i hi => ?_) fun j hj => ?_)
  · have hmax : field[i].toNat < 2 ^ 24 := Nat.lt_succ_of_le (by simpa [MaxOf, hi] using h ⟨i, by omega⟩)
    rw [unpackFields_wide _ i hi, ← group24, group24_packFrame field flags i hi, setWidth_extractLsb'_of_lt hmax]
  · have hmax : field[5 + j].toNat < 2 ^ 16 := Nat.lt_succ_of_le (by simpa [MaxOf] using h ⟨5 + j, by omega⟩)
    obtain ⟨h0, h1⟩ := packFrame_narrow field flags j hj
    rw [unpackFields_narrow _ j hj, h0, h1, BitVec.extractLsb'_append_extractLsb'_eq_extractLsb' (by decide),
      setWidth_extractLsb'_of_lt hmax]

/-- UNPACK takes from a packed frame the flags PACK put there. -/
theorem unpackFlags_packFrame (field : Vector Word 11) (flags : BitVec 2) :
    unpackFlags (packFrame field flags) = flags := by
  rw [unpackFlags, packFrame_flags, BitVec.extractLsb'_append_eq_right]

/-- PACK clears the reserved bits of the flags byte that UNPACK ignored (42_decoder.md R127). -/
theorem zero_append_extractLsb' (b : Byte) : 0#6 ++ b.extractLsb' 0 2 = b &&& 0b00000011#8 := by
  apply BitVec.eq_of_getLsbD_eq
  intro k hk
  rw [BitVec.getLsbD_append]
  interval_cases k <;> simp

/-- The STATUS word of a command that completed without error is 0 (10_state.md R27, R28). -/
theorem Status.word_ok : Status.ok.word = 0#32 := by decide

/-! ## The obligations -/

/-- Settles O31: B64DEC accepts what the token check accepts, and those are the spellings. -/
theorem acceptedSpellingsOfAFrame : Obligations.AcceptedSpellingsOfAFrame := by
  refine ⟨fun s F => (exec_b64dec_ok_iff s F).trans (tokenCause_none_and_frm_iff_spells s F), fun s hnone => ?_⟩
  have hc : s.tokenCause ≠ .none := fun hc =>
    hnone (frm s.token) ((tokenCause_none_and_frm_iff_spells s _).mp ⟨hc, rfl⟩)
  exact ⟨_, FmtCause.code_ne_zero hc, exec_of_tokenCause (.inl rfl) hc⟩

/-- Settles O34: the tick counts do not depend on byte 27, and the flags are its bits 1:0. -/
theorem unpackIgnoresReservedFlagBits : Obligations.UnpackIgnoresReservedFlagBits := by
  intro s b
  refine ⟨_, exec_of_no_error rfl, rfl, ?_⟩
  have hflags : unpackFlags (s.frame.set 27 (b ++ s.frame[27].extractLsb' 0 2)) = unpackFlags s.frame := by
    rw [unpackFlags, Vector.getElem_set_self, BitVec.extractLsb'_append_eq_right, unpackFlags]
  rw [exec_of_no_error rfl]
  simp only [commandWrites, State.writeUnpacked, hflags, unpackFields_set_last]
  rfl

/-- Settles O35: the unpacked tick counts are in range, and PACK puts them back. -/
theorem packAfterUnpackRebuildsTheFrame : Obligations.PackAfterUnpackRebuildsTheFrame := by
  intro s
  refine ⟨_, _, exec_of_no_error rfl, unpackFields_inRange s.frame, rfl,
    exec_of_no_error (commandError_of_inRange (.inl rfl) (unpackFields_inRange s.frame)), rfl,
    packFrame_unpackFields s.frame (unpackFlags s.frame), ?_⟩
  exact (packFrame_flags _ _).trans (zero_append_extractLsb' s.frame[27])

/-- Settles O36: the token an encoder writes spells its frame, so the decoder finds the frame again, and the tick counts
and flags in it. -/
theorem encoderAndDecoderRoundTrip : Obligations.EncoderAndDecoderRoundTrip := by
  refine ⟨fun s => ?_, fun s hr => ?_⟩
  · obtain ⟨hc, hframe⟩ := (tokenCause_none_and_frm_iff_spells s.writeToken.complete _).mpr (spells_of_token_eq rfl rfl)
    exact ⟨_, _, exec_of_no_error rfl, exec_of_no_error (commandError_of_tokenCause_none (.inl rfl) hc), hframe,
      Status.word_ok⟩
  · obtain ⟨hc, hframe⟩ := (tokenCause_none_and_frm_iff_spells s.writePackedFrame.writeToken.complete _).mpr
      (spells_of_token_eq rfl rfl)
    refine ⟨_, _, exec_of_no_error (commandError_of_inRange (.inr rfl) hr),
      exec_of_no_error (commandError_of_tokenCause_none (.inr rfl) hc), ?_, ?_, Status.word_ok⟩
    · exact (congrArg unpackFields hframe).trans (unpackFields_packFrame s.flags hr)
    · exact (congrArg unpackFlags hframe).trans (unpackFlags_packFrame s.field s.flags)

end Sys2Proof.Machine

/-! # The source's decoding algorithm

RefDecode (42_decoder.md R121) succeeds with 28 bytes only on nine full groups and a last group `xx==`: 38 characters of
the alphabet and two pad characters, of the token or appended. The token check asks the same of TOKEN. -/

namespace Sys2Proof.Machine

/-! ## Base64 decoding, group by group -/

/-- A full group decodes exactly when its four characters have indices (42_decoder.md R121). -/
theorem decodeFullGroup_eq_some_iff {a b c d : Byte} {bytes : List Byte} :
    decodeFullGroup a b c d = some bytes ↔ ∃ u, standardIndex a = some u ∧ ∃ v, standardIndex b = some v ∧
      ∃ w, standardIndex c = some w ∧ ∃ x, standardIndex d = some x ∧
        [(group24OfSextets u v w x).extractLsb' 16 8, (group24OfSextets u v w x).extractLsb' 8 8,
          (group24OfSextets u v w x).extractLsb' 0 8] = bytes := by
  simp only [decodeFullGroup, Option.bind_eq_bind, Option.bind_eq_some_iff, Option.pure_def, Option.some.injEq]

/-- A last group `xx==` decodes exactly when its two characters have indices and its pad bits are allowed
(42_decoder.md R121). -/
theorem decodeGroupPad2_eq_some_iff {strict : Bool} {a b : Byte} {bytes : List Byte} :
    decodeGroupPad2 strict a b = some bytes ↔ ∃ u, standardIndex a = some u ∧ ∃ v, standardIndex b = some v ∧
      (strict = true → v.extractLsb' 0 4 = 0#4) ∧ [u ++ v.extractLsb' 4 2] = bytes := by
  have hbits (u v : Sextet) : (u ++ v).extractLsb' 0 4 = v.extractLsb' 0 4 :=
    BitVec.extractLsb'_append_eq_of_add_le (by decide)
  have hbyte (u v : Sextet) : (u ++ v).extractLsb' 4 8 = u ++ v.extractLsb' 4 2 := by
    have hsplit := BitVec.extractLsb'_append_extractLsb'_eq_extractLsb' (start₂ := 6) (len₂ := 6) (start₁ := 4)
      (len₁ := 2) (x := u ++ v) rfl
    rw [BitVec.extractLsb'_append_eq_left, BitVec.extractLsb'_append_eq_of_add_le (by decide)] at hsplit
    exact hsplit.symm
  simp only [decodeGroupPad2, Option.bind_eq_bind, Option.bind_eq_some_iff, hbits, hbyte, Bool.and_eq_true, bne_iff_ne,
    Option.ite_none_left_eq_some, not_and_not_right, Option.pure_def, Option.some.injEq]

/-- A last group `xxx=` decodes to two bytes (42_decoder.md R121). -/
theorem length_of_decodeGroupPad1 {strict : Bool} {a b c : Byte} {bytes : List Byte}
    (h : decodeGroupPad1 strict a b c = some bytes) : bytes.length = 2 := by
  simp only [decodeGroupPad1, Option.bind_eq_bind, Option.bind_eq_some_iff] at h
  obtain ⟨u, -, v, -, w, -, h⟩ := h
  split at h <;> cases h
  rfl

/-- What a list that decodes can be: empty, a last group with two or with one pad character, or a full group in front of
a list that decodes (42_decoder.md R121). -/
theorem base64Decode_cases {strict : Bool} {l bytes : List Byte} (h : base64Decode strict l = some bytes) :
    (l = [] ∧ bytes = []) ∨
    (∃ a b, l = [a, b, padChar, padChar] ∧ decodeGroupPad2 strict a b = some bytes) ∨
    (∃ a b c, decodeGroupPad1 strict a b c = some bytes) ∨
    (∃ a b c d rest front more, l = a :: b :: c :: d :: rest ∧ decodeFullGroup a b c d = some front ∧
      base64Decode strict rest = some more ∧ bytes = front ++ more) := by
  unfold base64Decode at h
  split at h
  · cases h
    exact .inl ⟨rfl, rfl⟩
  · rename_i a b c d
    split at h
    · rename_i hd
      split at h
      · rename_i hc
        exact .inr (.inl ⟨a, b, by rw [hc, hd], h⟩)
      · exact .inr (.inr (.inl ⟨a, b, c, h⟩))
    · exact .inr (.inr (.inr ⟨a, b, c, d, [], bytes, [], rfl, h, rfl, (List.append_nil _).symm⟩))
  · rename_i a b c d rest _
    simp only [Option.bind_eq_bind, Option.bind_eq_some_iff] at h
    obtain ⟨front, hfront, more, hmore, h⟩ := h
    cases h
    exact .inr (.inr (.inr ⟨a, b, c, d, rest, front, more, rfl, hfront, hmore, rfl⟩))
  · cases h

/-- A list that decodes to n groups and one byte is 4n + 2 characters of the alphabet, of which the last has allowed pad
bits, and two pad characters. -/
theorem eq_append_of_base64Decode {strict : Bool} (n : Nat) {l bytes : List Byte}
    (h : base64Decode strict l = some bytes) (hlen : bytes.length = 3 * n + 1) :
    ∃ data : List Byte, l = data ++ [padChar, padChar] ∧ data.length = 4 * n + 2 ∧
      (∀ c ∈ data, standardIndex c ≠ none) ∧
      ∃ c v, data.getLast? = some c ∧ standardIndex c = some v ∧ (strict = true → v.extractLsb' 0 4 = 0#4) := by
  induction n generalizing l bytes with
  | zero =>
    rcases base64Decode_cases h with ⟨-, rfl⟩ | ⟨a, b, rfl, hpad2⟩ | ⟨a, b, c, hpad1⟩ |
      ⟨a, b, c, d, rest, front, more, -, hfull, -, rfl⟩
    · cases hlen
    · obtain ⟨u, hu, v, hv, hbits, -⟩ := decodeGroupPad2_eq_some_iff.mp hpad2
      exact ⟨[a, b], rfl, rfl, by simp [hu, hv], b, v, rfl, hv, hbits⟩
    · have := length_of_decodeGroupPad1 hpad1
      omega
    · obtain ⟨u, -, v, -, w, -, x, -, rfl⟩ := decodeFullGroup_eq_some_iff.mp hfull
      simp at hlen
  | succ n ih =>
    rcases base64Decode_cases h with ⟨-, rfl⟩ | ⟨a, b, rfl, hpad2⟩ | ⟨a, b, c, hpad1⟩ |
      ⟨a, b, c, d, rest, front, more, rfl, hfull, hmore, rfl⟩
    · cases hlen
    · obtain ⟨u, -, v, -, -, rfl⟩ := decodeGroupPad2_eq_some_iff.mp hpad2
      simp at hlen
    · have := length_of_decodeGroupPad1 hpad1
      omega
    · obtain ⟨u, hu, v, hv, w, hw, x, hx, rfl⟩ := decodeFullGroup_eq_some_iff.mp hfull
      obtain ⟨data, rfl, hdlen, hdata, e, y, hlast, hrest⟩ := ih hmore (by simp at hlen; omega)
      refine ⟨a :: b :: c :: d :: data, rfl, ?_, by simpa [hu, hv, hw, hx] using hdata, e, y, ?_, hrest⟩
      · simp [hdlen]
        omega
      · simp [List.getLast?_cons, hlast]

/-- A list of at least four elements, with its first four written out. -/
theorem drop_eq_four_cons {l : List Byte} {k : Nat} (h : k + 3 < l.length) :
    l.drop k = l[k] :: l[k + 1] :: l[k + 2] :: l[k + 3] :: l.drop (k + 4) := by
  rw [List.drop_eq_getElem_cons, List.drop_eq_getElem_cons, List.drop_eq_getElem_cons, List.drop_eq_getElem_cons]

/-- Four characters with indices, in front of more groups, decode to their three bytes and those of the rest
(42_decoder.md R121). -/
theorem base64Decode_cons {strict : Bool} {a b c d : Byte} {rest front more : List Byte} (hne : rest ≠ [])
    (hfull : decodeFullGroup a b c d = some front) (hmore : base64Decode strict rest = some more) :
    base64Decode strict (a :: b :: c :: d :: rest) = some (front ++ more) := by
  cases rest with
  | nil => exact absurd rfl hne
  | cons e rest => simp [base64Decode, hfull, hmore]

/-- 38 characters with the indices of a token, its pad bits allowed, and two pad characters decode to the token's frame:
from group g on, to the frame's bytes from 3g on. -/
theorem base64Decode_drop {strict : Bool} {T : Vector Byte 64} {l : List Byte} (hlen : l.length = 40)
    (hdata : ∀ (k : Nat) (h : k < 38), standardIndex l[k] = some (sextetAt T k (by omega)))
    (h38 : l[38] = padChar) (h39 : l[39] = padChar)
    (hbits : strict = true → (sextetAt T 37 (by omega)).extractLsb' 0 4 = 0#4) (m g : Nat) (hg : g + m = 9) :
    base64Decode strict (l.drop (4 * g)) = some ((frm T).toList.drop (3 * g)) := by
  induction m generalizing g with
  | zero =>
    obtain rfl : g = 9 := hg
    have hpad2 : decodeGroupPad2 strict l[36] l[37] = some [(frm T)[27]] :=
      decodeGroupPad2_eq_some_iff.mpr ⟨_, hdata 36 (by omega), _, hdata 37 (by omega), hbits, by rw [frm_last]⟩
    have hl : l.drop 36 = [l[36], l[37], padChar, padChar] := by
      rw [drop_eq_four_cons (by omega), h38, h39, List.drop_of_length_le (by omega)]
    have hF : (frm T).toList.drop 27 = [(frm T)[27]] := by
      rw [List.drop_eq_getElem_cons (by simp), List.drop_of_length_le (by simp), Vector.getElem_toList]
    rw [hl, hF, ← hpad2]
    simp [base64Decode]
  | succ m ih =>
    have hrest := ih (g + 1) (by omega)
    obtain ⟨b0, b1, b2⟩ := frm_group T g (by omega)
    have hfull : decodeFullGroup l[4 * g] l[4 * g + 1] l[4 * g + 2] l[4 * g + 3] =
        some [(frm T)[3 * g], (frm T)[3 * g + 1], (frm T)[3 * g + 2]] :=
      decodeFullGroup_eq_some_iff.mpr ⟨_, hdata _ (by omega), _, hdata _ (by omega), _, hdata _ (by omega),
        _, hdata _ (by omega), by rw [b0, b1, b2]⟩
    have hF : (frm T).toList.drop (3 * g) =
        [(frm T)[3 * g], (frm T)[3 * g + 1], (frm T)[3 * g + 2]] ++ (frm T).toList.drop (3 * (g + 1)) := by
      rw [List.drop_eq_getElem_cons (by simp; omega), List.drop_eq_getElem_cons (by simp; omega),
        List.drop_eq_getElem_cons (by simp; omega)]
      rfl
    rw [drop_eq_four_cons (by omega), hF]
    exact base64Decode_cons (by simp; omega) hfull hrest

/-! ## The characters that are decoded -/

/-- RefDecode succeeds exactly on what decodes to 28 bytes (42_decoder.md R121). -/
theorem refDecode_eq_some_iff {strict : Bool} {chars bytes : List Byte} :
    refDecode strict chars = some bytes ↔
      base64Decode strict (padToGroups (chars.map reverseSubstitution)) = some bytes ∧ bytes.length = 28 := by
  simp only [refDecode, Option.bind_eq_bind, Option.bind_eq_some_iff, Option.ite_none_right_eq_some,
    Option.some.injEq]
  constructor
  · rintro ⟨_, h, hlen, rfl⟩
    exact ⟨h, hlen⟩
  · rintro ⟨h, hlen⟩
    exact ⟨_, h, hlen, rfl⟩

/-- Padding fills the last group of four (42_decoder.md R121). -/
theorem padToGroups_length (l : List Byte) : (padToGroups l).length = l.length + (4 - l.length % 4) % 4 := by
  simp [padToGroups]

/-- A character of the token, its substitution reversed. -/
theorem padToGroups_of_lt {chars : List Byte} {k : Nat} (h : k < chars.length) :
    (padToGroups (chars.map reverseSubstitution))[k]? = some (reverseSubstitution chars[k]) := by
  simp [padToGroups, List.getElem?_append_left, h]

/-- Behind the token's characters there are pad characters. -/
theorem padToGroups_of_ge {l : List Byte} {k : Nat} (h : l.length ≤ k) (hk : k < (padToGroups l).length) :
    (padToGroups l)[k]? = some padChar := by
  rw [padToGroups_length] at hk
  rw [padToGroups, List.getElem?_append_right h, List.getElem?_replicate, if_pos (by omega)]

/-- Reversing the substitutions makes no pad character (42_decoder.md R121). -/
theorem reverseSubstitution_eq_padChar_iff (b : Byte) : reverseSubstitution b = padChar ↔ b = padChar := by
  unfold reverseSubstitution
  split
  · rw [‹b = 0x2D#8›]; decide
  split
  · rw [‹b = 0x5F#8›]; decide
  · rfl

/-- The pad character has no index (30_encoding.md R67). -/
theorem standardIndex_padChar : standardIndex padChar = none := by decide

/-! ## The token check and RefDecode -/

section
variable {s : State} {chars : List Byte} (hlen : chars.length = s.tokenLen.toNat)
  (hchars : ∀ (k : Nat) (_ : k < 64) (_ : k < chars.length), chars[k] = s.token[k])
include hlen hchars

/-- RefDecode finds the frame of a valid token (42_decoder.md R123). -/
theorem refDecode_of_tokenCause_none (hc : s.tokenCause = .none) :
    refDecode s.config.strictPadBits chars = some (frm s.token).toList := by
  obtain ⟨⟨hge, hle⟩, hdata, hpad, hbits⟩ := (tokenCause_eq_iff s .none).mp hc
  have hlen40 : (padToGroups (chars.map reverseSubstitution)).length = 40 := by
    rw [padToGroups_length, List.length_map]
    omega
  have hpadChar (k : Nat) (h38 : 38 ≤ k) (hk : k < 40) :
      (padToGroups (chars.map reverseSubstitution))[k]? = some padChar := by
    by_cases hkl : k < chars.length
    · rw [padToGroups_of_lt hkl, hchars k (by omega) hkl, hpad k (by omega) h38 (by omega)]
      rfl
    · exact padToGroups_of_ge (by simpa using hkl) (by omega)
  refine refDecode_eq_some_iff.mpr ⟨?_, by simp⟩
  refine base64Decode_drop hlen40 (fun k hk => ?_) ((List.getElem_eq_iff _).mpr (hpadChar 38 (by omega) (by omega)))
    ((List.getElem_eq_iff _).mpr (hpadChar 39 (by omega) (by omega))) ((padBitsOk_iff hdata).mp hbits) 9 0 rfl
  rw [(List.getElem_eq_iff _).mpr (padToGroups_of_lt (by omega)), standardIndex_reverseSubstitution,
    hchars k (by omega) (by omega), dec_eq_some_sextetAt (by omega) (hdata k hk)]

/-- What RefDecode decodes is a valid token (42_decoder.md R123). -/
theorem tokenCause_none_of_refDecode {bytes : List Byte} (h : refDecode s.config.strictPadBits chars = some bytes) :
    s.tokenCause = .none := by
  obtain ⟨hdecode, hbytes⟩ := refDecode_eq_some_iff.mp h
  obtain ⟨data, hsplit, hdlen, hdata, c, v, hlast, hv, hbits⟩ := eq_append_of_base64Decode 9 hdecode hbytes
  have htotal : 40 = chars.length + (4 - chars.length % 4) % 4 := by
    rw [← chars.length_map (f := reverseSubstitution), ← padToGroups_length, hsplit]
    simp [hdlen]
  have hdataAt (k : Nat) (hk : k < 38) : (padToGroups (chars.map reverseSubstitution))[k]? = some data[k] := by
    rw [hsplit, List.getElem?_append_left (by omega), List.getElem?_eq_getElem]
  have h37 : 37 < chars.length := by
    by_contra hle
    have hpad37 := padToGroups_of_ge (l := chars.map reverseSubstitution) (k := 37) (by simpa using hle)
      (by simp [hsplit, hdlen])
    rw [hdataAt 37 (by decide), Option.some.injEq] at hpad37
    exact hdata _ (List.getElem_mem _) (hpad37 ▸ standardIndex_padChar)
  have hdec (k : Nat) (hk : k < 38) : dec s.token[k] = standardIndex data[k] := by
    have hat := (padToGroups_of_lt (by omega)).symm.trans (hdataAt k hk)
    rw [Option.some.injEq, hchars k (by omega) (by omega)] at hat
    rw [← hat, standardIndex_reverseSubstitution]
  refine (tokenCause_eq_iff s .none).mpr ⟨⟨by omega, by omega⟩, fun k hk => ?_, fun k hk h38 hkl => ?_,
    fun hs w hw => ?_⟩
  · rw [hdec k hk]
    exact hdata _ (List.getElem_mem _)
  · have hkc : k < chars.length := by omega
    have hat := padToGroups_of_lt hkc
    rw [hsplit, List.getElem?_append_right (by omega), hchars k hk hkc] at hat
    have hpad : reverseSubstitution s.token[k] = padChar := by simpa using List.mem_of_getElem? hat
    exact (reverseSubstitution_eq_padChar_iff _).mp hpad
  · rw [List.getLast?_eq_getElem?, hdlen, List.getElem?_eq_some_iff] at hlast
    obtain ⟨_, rfl⟩ := hlast
    rw [hdec 37 (by decide)] at hw
    cases hv.symm.trans hw
    exact hbits hs

end

/-! ## The obligations -/

/-- Settles O30: RefDecode finds the frame of a valid token, and what it decodes is valid. -/
theorem tokenCheckAcceptsWhatRefDecodeAccepts : Obligations.TokenCheckAcceptsWhatRefDecodeAccepts := by
  intro s chars hlen hchars
  refine ⟨fun hc => ⟨_, frm_isFrameOf hc, refDecode_of_tokenCause_none hlen hchars hc⟩, fun hc => ?_⟩
  exact Option.eq_none_iff_forall_ne_some.mpr fun _ h => hc (tokenCause_none_of_refDecode hlen hchars h)

end Sys2Proof.Machine

/-! # The exceptions: what an error of a CMD write leaves

The block has no exception entry but a new STATUS: IllegalCommand stops a word before any command runs, and a command
either raises its error on the state it began with or completes with ERR 0 (60_exceptions.md R141 to R143, R146). -/

namespace Sys2Proof.Machine

/-- An illegal word raises IllegalCommand (60_exceptions.md R143). -/
theorem execute_of_illegalWord {w : Word} (h : IllegalWord w) (s : State) : execute w s = .next (s.raise .illegal) := by
  obtain ⟨e, he⟩ := (decode_error_iff_illegalWord w).mpr h
  exact execute_of_decode_error he s

/-- A CMD write whose ERR is not 0 has raised one error on the state before it (60_exceptions.md R146). -/
theorem exists_raise_of_execute_err_ne {w : Word} {s t : State} (h : execute w s = .next t)
    (herr : t.status.err ≠ 0#3) : ∃ e, t = s.raise e := by
  rcases execute_cases h with ⟨-, rfl⟩ | ⟨i, -, hi⟩
  · exact ⟨.illegal, rfl⟩
  · rcases exec_cases hi with ⟨e, -, rfl⟩ | ⟨-, rfl⟩
    · exact ⟨e, rfl⟩
    · exact absurd (congrArg Status.err (State.complete_status _)) herr

/-! ## The obligations -/

/-- Settles O9: the oldest action is a CMD write, and its word raises IllegalCommand on the state without that action. -/
theorem illegalWordWritesOnlyStatus : Obligations.IllegalWordWritesOnlyStatus := by
  intro s rest w hr hp hill
  calc step s
      = busWrite (s.withPending rest) 0x000 w := step_busWrite (by decide) hr hp
    _ = onNext (execute w (s.withPending rest)) (·.respond (.write .ok)) := busWrite_cmd _ w
    _ = .next (((s.withPending rest).raise .illegal).respond (.write .ok)) := by
        rw [execute_of_illegalWord hill]; rfl

/-- Settles O20: an error is raised on the state before, and raising it replaces STATUS. -/
theorem errorsReplaceOnlyStatus : Obligations.ErrorsReplaceOnlyStatus := by
  intro w s t h herr
  obtain ⟨e, rfl⟩ := exists_raise_of_execute_err_ne h herr
  rfl

end Sys2Proof.Machine

/-! # Reset: the configuration, the first command, the accesses reset forbids

The configuration is no register, so no host action writes it. At the reset values PACK has nothing to change, and the
token's length, which is 0, is the first check of DECODE to fail. -/

namespace Sys2Proof.Machine

/-! ## The configuration -/

/-- A bus write leaves the configuration. -/
theorem busWrite_config {s t : State} {off : Nat} {v : Word} (h : busWrite s off v = .next t) :
    t.config = s.config := by
  rcases busWrite_cases h with ⟨-, rfl⟩ | ⟨u, -, hu, rfl⟩ | ⟨r, -, -, rfl⟩
  · rfl
  · obtain ⟨hconfig, -⟩ := execute_config_resetAsserted hu
    exact hconfig
  · exact writeReg_config s r v

/-- A host action leaves the configuration, reset included (70_reset_and_hazards.md R170). -/
theorem runAction_config {s t : State} {a : HostAction} (h : runAction s a = .next t) : t.config = s.config := by
  rcases runAction_cases h with ⟨r, rfl⟩ | ⟨off, v, -, hw⟩ | ⟨b, rfl⟩
  · rfl
  · exact busWrite_config hw
  · exact s.driveReset_config b

/-! ## The first command after reset -/

/-- Tick counts of zero are in range. -/
theorem inRange_replicate_zero : InRange (Vector.replicate 11 0#32) := by
  intro i
  simp

/-- Tick counts of zero with no flag pack into the zero frame. -/
theorem packFrame_replicate_zero : packFrame (Vector.replicate 11 0#32) 0#2 = Vector.replicate 28 0#8 := by
  have htick := forall_tick_byte (P := fun k _ => (packFrame (Vector.replicate 11 0#32) 0#2)[k] = 0#8)
    (fun i hi => by simp [packFrame_wide _ _ i hi]) (fun j hj => by simp [packFrame_narrow _ _ j hj])
  ext1 k hk
  rw [Vector.getElem_replicate]
  rcases Nat.lt_succ_iff_lt_or_eq.mp hk with hlt | rfl
  · exact htick k hlt
  · exact packFrame_flags _ _

/-- PACK leaves a state at its reset values as it is (70_reset_and_hazards.md R172). -/
theorem exec_pack_of_registersAtReset {s : State} (h : s.RegistersAtReset) : exec .pack s = .next s := by
  obtain ⟨hfield, hflags, hframe, -, -, hstatus⟩ := s.registersAtReset_iff.mp h
  have hrange : InRange s.field := hfield ▸ inRange_replicate_zero
  rw [exec_of_no_error (commandError_of_inRange (.inl rfl) hrange)]
  have hwrites : commandWrites .pack s = s.withFrame s.frame := by
    rw [commandWrites, State.writePackedFrame, hfield, hflags, packFrame_replicate_zero, hframe]
  rw [hwrites, State.complete, ← hstatus]
  rfl

/-- DECODE of a token of length 0 changes STATUS alone, to a format error with the cause LENGTH
(70_reset_and_hazards.md R172). -/
theorem exec_decode_of_tokenLen_zero {s : State} (h : s.tokenLen = 0#16) :
    exec .decode s = .next { s with status := ⟨2#3, 1#4, 0#11⟩ } :=
  exec_of_causeApplies (c := .length) (.inr rfl) (by simp) (by simp [CauseApplies, LengthOk, h])

/-- The STATUS word of a format error with the cause LENGTH (60_exceptions.md R140). -/
theorem CommandError.length_word : (CommandError.format .length).status.word = 0x00000012#32 := by decide

/-! ## An access while reset is asserted -/

/-- While reset is asserted a bus read in the window is refused (70_reset_and_hazards.md R171). -/
theorem runAction_busRead_of_asserted {s : State} (hr : s.resetAsserted = true) {off : Nat} (hoff : off < 0x100) :
    runAction s (.busRead (s.config.base + off)) = .refused .accessDuringReset := by
  simp only [runAction, offsetOf_base_add _ hoff, hr, if_true]

/-- While reset is asserted a bus write in the window is refused (70_reset_and_hazards.md R171). -/
theorem runAction_busWrite_of_asserted {s : State} (hr : s.resetAsserted = true) {off : Nat} (hoff : off < 0x100)
    (v : Word) : runAction s (.busWrite (s.config.base + off) v) = .refused .accessDuringReset := by
  simp only [runAction, offsetOf_base_add _ hoff, windowWrite_of_asserted hr]

/-! ## The obligations -/

/-- Settles O5: a step is its oldest action, which leaves the configuration, or changes nothing. -/
theorem stepKeepsConfiguration : Obligations.StepKeepsConfiguration := by
  intro s t h
  rcases step_cases h with ⟨-, rfl⟩ | ⟨a, rest, -, ha⟩
  · rfl
  · exact (runAction_config ha).trans (s.withPending_config rest)

/-- Settles O2: the zero frame is the packed frame of the reset values, and the token's length is 0. -/
theorem commandsRightAfterReset : Obligations.CommandsRightAfterReset :=
  fun c => ⟨_, _, exec_pack_of_registersAtReset (State.resetFor_registersAtReset c), rfl,
    exec_decode_of_tokenLen_zero rfl, rfl, CommandError.length_word⟩

/-- Settles O43: the action's address is in the window, and reset refuses both transactions there. -/
theorem accessDuringResetIsRefused : Obligations.AccessDuringResetIsRefused := by
  intro s rest off v hoff hr hp
  have hr' : (s.withPending rest).resetAsserted = true := hr
  rcases hp with hp | hp
  · exact (step_of_pending hp).trans (runAction_busRead_of_asserted hr' hoff)
  · exact (step_of_pending hp).trans (runAction_busWrite_of_asserted hr' hoff v)

end Sys2Proof.Machine
